-- ==== Sys2Proof/Word.lean ====
section
/-!
DEFINITION. The words of the AC-416: bytes of frames and table images (R1, R184), the 16-bit check register (R2),
the 32-bit minute clock (R36), and the identifiers of 0.5.
-/
namespace Sys2Proof

/-- One byte of a frame, a payload or a table image (R1, R184). -/
abbrev Byte := BitVec 8

/-- The 16-bit check register of R2. -/
abbrev CheckWord := BitVec 16

/-- A value of the minute clock: an unsigned 32-bit count of minutes that wraps (R36). -/
abbrev Minute := BitVec 32

/-- A media ID or courier ID: 8 characters, one per byte (0.5, R184). -/
abbrev Ident := List Byte

/-- The low byte of a number. -/
def byteOf (n : Nat) : Byte := BitVec.ofNat 8 n

end Sys2Proof
end

