-- ==== Sys2Proof/Syntax.lean ====
section
/-!
DEFINITION. The commands of the AC-416: one constructor of `Instr` for each row of spec/opcode_table.json, with the
row's operands. A command is one whole and indivisible step of the part (95_what_each_step_holds).
-/
namespace Sys2Proof

/-- The two links; also the sources SITE and FIELD of the link alerts (R3, R159). -/
inductive Link where
  | site
  | field
  deriving DecidableEq, Repr

/-- The fire states of a zone (R78). -/
inductive FireState where
  | quiet
  | preAlarm
  | alarm
  | releaseCountdown
  | released
  deriving DecidableEq, Repr

/-- What the Handover Controller is told about a zone: an evaluation (R62 step 3), a change of the fire state or of
the UNMONITORED flag with the new value (R97). -/
inductive ZoneReport where
  | evaluated
  | fireChanged (new : FireState)
  | unmonitoredChanged (flag : Bool)
  deriving DecidableEq, Repr

/-- The order in which the owners that may offer frames take a minute tick or an accepted ACTIVATE, which the spec
leaves open (R36: "their work is not ordered among them"; R177: "are not ordered among themselves"). DESIGN CHOICE
(log 8): the command carries the choice, so a claim about the command holds for both orders. -/
inductive OwnerOrder where
  | climateFirst
  | climateLast
  deriving DecidableEq, Repr

/-- The commands, one per row of spec/opcode_table.json. A field frame a job block takes names the station table
entry (`entry`) whose poll it answered (R22, R24) and carries its payload as received. A request carries its tag and the
parameters of its layout (11.4). -/
inductive Instr where
  /-- Power-on or a low RESET line (R183). -/
  | reset
  /-- More than 10 ms have passed since the last byte of a partial frame (R3). -/
  | byteGapTimeout (link : Link)
  /-- Bytes arrive on the site link; each frame they complete is tested and classified (R3, R4, R29). -/
  | siteFrameReceived (bytes : List Byte)
  /-- The site transmitter has sent the last check byte (R5). -/
  | siteTransmitComplete
  /-- The last check byte of a field transmission has been sent (R9). -/
  | fieldTransmissionEnd
  /-- 15 ms of the response window have passed and no byte has arrived (R10). -/
  | responseWindowExpiry
  /-- Bytes arrive on the field segment within the response window (R10). -/
  | fieldResponse (bytes : List Byte)
  /-- Bytes arrive on the field segment outside a response window (R11). -/
  | fieldFrameOutOfTurn (bytes : List Byte)
  /-- CLS takes a SAMPLE (R48). -/
  | sample (entry : Nat) (payload : List Byte)
  /-- FRS takes a STAGE (R71). -/
  | stage (entry : Nat) (payload : List Byte)
  /-- FRS evaluates a zone whose coupled-source set changed (R84). -/
  | coupledZoneEvaluation (zone : Nat)
  /-- HOC takes a POSITION (R122). -/
  | position (entry : Nat) (payload : List Byte)
  /-- CSU takes a custody scan of a door reader whose intent is TAKE, or cannot be read (R103, R25). -/
  | takeScan (entry : Nat) (payload : List Byte)
  /-- CSU takes a custody scan of a door reader whose intent is RETURN (R104). -/
  | returnScan (entry : Nat) (payload : List Byte)
  /-- CSU takes a wrong-station scan (R105). -/
  | wrongStationScan (entry : Nat) (payload : List Byte)
  /-- HOC takes an ARRIVE (R130). -/
  | arrive (entry : Nat) (payload : List Byte)
  /-- HOC takes a CASE (R132). -/
  | caseReport (entry : Nat) (payload : List Byte)
  /-- HOC takes an ACCEPT (R136). -/
  | accept (entry : Nat) (payload : List Byte)
  /-- HOC takes a CONFIRM (R136). -/
  | confirm (entry : Nat) (payload : List Byte)
  /-- HOC takes an item scan of intent HANDOVER (R139). -/
  | scanHandover (entry : Nat) (payload : List Byte)
  /-- HOC takes an item scan of intent RECEIVE (R139). -/
  | scanReceive (entry : Nat) (payload : List Byte)
  /-- HOC takes a DONE (R141). -/
  | doneStep (entry : Nat) (payload : List Byte)
  /-- HOC takes a zone report (R131). -/
  | zoneReport (zone : Nat) (report : ZoneReport)
  /-- One second has passed (R35, R41); `order` is read only when this is also a minute tick. -/
  | secondTick (order : OwnerOrder)
  /-- The second tick at which the second count wraps (R36). -/
  | minuteTick (order : OwnerOrder)
  /-- CSU makes one visit of the minute scan (R107). -/
  | minuteScanVisit
  /-- CSU makes one visit of the AGENT sweep (R113). -/
  | agentSweepVisit
  /-- FRS takes an expiry of a zone's release timer (R90). -/
  | releaseTimerExpiry (zone : Nat)
  /-- HOC takes an expiry of a hatch's step timer (R146). -/
  | stepTimerExpiry (hatch : Nat)
  /-- HOC takes an expiry of a hatch's dwell timer (R146). -/
  | dwellTimerExpiry (hatch : Nat)
  /-- MGA takes an expiry of the supervision timer (R148). -/
  | supervisionTimerExpiry
  /-- CLS takes an expiry of the autonomous retry timer, plain or marked as an overrun (R154, R155). -/
  | retryTimerExpiry (overrun : Bool)
  /-- The remaining milliseconds of the ALERT pulse timer have passed (R43, R163). -/
  | alertPulseExpiry
  /-- MGA takes a REQUEST it cannot read (R168). -/
  | malformedRequest (payload : List Byte)
  | ident (tag : Byte)
  /-- `index` is the 8-byte index field of the layout. -/
  | read (tag : Byte) (selector : Nat) (index : List Byte)
  | tableOpen (tag : Byte) (table : Nat) (start : Nat)
  /-- `images` are the bytes after the count. -/
  | tableWrite (tag : Byte) (count : Nat) (images : List Byte)
  | tableRead (tag : Byte) (count : Nat)
  | activate (tag : Byte) (expected : Nat)
  /-- The computation of the activation check ends (R177). -/
  | activateCheckComplete (order : OwnerOrder)
  | deactivate (tag : Byte)
  | restart (tag : Byte)
  | zoneProfile (tag : Byte) (zone : Nat) (profile : Nat)
  | zoneClearExposure (tag : Byte) (zone : Nat)
  | zoneFireReset (tag : Byte) (zone : Nat)
  | zoneRelease (tag : Byte) (zone : Nat)
  | zoneSilence (tag : Byte) (zone : Nat)
  | mediaEnter (tag : Byte) (id : Ident) (cls : Nat) (home : Nat) (initial : Nat)
  | mediaDelete (tag : Byte) (id : Ident)
  | mediaMove (tag : Byte) (id : Ident) (home : Nat)
  | mediaHoldSet (tag : Byte) (id : Ident) (hold : Nat)
  | mediaHoldClear (tag : Byte) (id : Ident) (hold : Nat)
  | mediaQuery (tag : Byte) (id : Ident)
  /-- `items` are the media IDs; the layout's item count is their number. -/
  | consign (tag : Byte) (number : Nat) (direction : Nat) (hatch : Nat) (courier : Ident) (items : List Ident)
  | consignCancel (tag : Byte) (number : Nat)
  | clearAlerts (tag : Byte) (kinds : List Nat)
  | setMask (tag : Byte) (value : Nat) (kinds : List Nat)
  | resume (tag : Byte)
  | storeBurn (tag : Byte) (item : Nat) (value : Nat)
  /-- A burn ends (R181). -/
  | storeBurnComplete
  | setLive (tag : Byte) (item : Nat) (value : Nat)
  deriving DecidableEq, Repr

end Sys2Proof
end

