-- ==== Sys2Proof/Decode.lean ====
section
/-!
DEFINITION. The AC-416 is a block: it decodes no instruction words, and no row of spec/opcode_table.json gives bits
("fields": [] in every row). The commands of the two links are read from their frames in Machine/Operands.lean.
-/
namespace Sys2Proof

/-- The command a word spells by the opcode table's bits: none, since no row of the table gives bits. -/
def decodeTableWord (_nbits _w : Nat) : Option Instr := none

end Sys2Proof
end

