-- ==== Sys2Proof/Config.lean ====
section
/-!
DEFINITION. What the part fixes (capacities, sizes, codes of IDENT) and the free values of the model. A free value has
no body: no proof can see what it is, and a claim about it holds whatever it is.
-/
namespace Sys2Proof.Config

/-- Capacity of the site queue (R5). -/
def siteCapacity : Nat := 48
/-- Capacity of the ordinary queue (R14). -/
def ordinaryCapacity : Nat := 32
/-- Entries of the station table (R18). -/
def stationCount : Nat := 192
/-- Zones (0.1). -/
def zoneCount : Nat := 16
/-- Hatches (R120). -/
def hatchCount : Nat := 4
/-- Media slots (R99). -/
def slotCount : Nat := 4096
/-- Consignment records (R123). -/
def consignmentCount : Nat := 8
/-- Entries gathered for one MEDIA notice (R111). -/
def mediaNoticeEntries : Nat := 16
/-- Items of one HANDOVER frame (R185). -/
def handoverFrameItems : Nat := 12
/-- Stored bytes of the last forwarded payload (R20). -/
def lastForwardedBytes : Nat := 16
/-- Result bytes of one REPLY: a payload of 255 bytes less its four header bytes (R1, 11.4). -/
def replyResultBytes : Nat := 251
/-- Milliseconds of an ALERT pulse (R43). -/
def pulseLoad : Nat := 200
/-- Vendor, part and revision codes of IDENT (R170). -/
def vendorCode : Nat := 0x0C5D
def partCode : Nat := 416
def revisionCode : Nat := 2

/-- FREE VALUE (log 10). What a MALFORMED REPLY echoes at `position` (0 the request kind, 1 the tag) when the REQUEST
payload is too short to hold that byte: R168 says both are echoed and states no value for a missing one. -/
opaque missingEcho (payload : List Byte) (position : Nat) : Byte

/-- FREE VALUE (log 11). The result bytes of a REPLY whose results are longer than one REPLY payload can carry
(R171 gives a READ every field of a record, R1 limits the payload to 255 bytes). Only its first 251 bytes are used. -/
opaque overlongResults (results : List Byte) : List Byte

/-- FREE VALUE (log 12). The one-byte part number of a MEDIA notice whose number is above 255 (R111, 11.5). -/
opaque overlongPart (number : Nat) : Byte

end Sys2Proof.Config
end

