-- ==== Sys2Proof/Machine/State.lean ====
section
/-!
DEFINITION. The state of the AC-416 as plain data, one record for each block of 0.2, and the state after reset. Numbers
the manual counts with are Nat, signed temperatures Int, bytes and the minute clock bit vectors.
-/
namespace Sys2Proof.Machine

/-- A table: entries listed by rising index, none equal to what an unlisted entry reads as (`Tab.wf`). -/
abbrev Tab (α : Type) := List (Nat × α)

/-! ### Frames and queues (R1, R5, R13, R14) -/

/-- A frame without its check value, which is a function of the other bytes (R1, R2). -/
structure Frame where
  dst : Nat
  src : Nat
  kind : Nat
  payload : List Byte
  deriving DecidableEq, Repr

/-- What a frame in the site queue is (R5): a forwarded field response, a REPLY, the REPLY to RESTART (R179), a NOTICE. -/
inductive SiteTag where
  | forwarded
  | reply
  | restartReply
  | notice
  deriving DecidableEq, Repr

structure SiteItem where
  frame : Frame
  tag : SiteTag
  deriving DecidableEq, Repr

/-- The origin of an ordinary frame: SITE or the job block that originated it (R14). -/
inductive Origin where
  | site
  | cls
  | frs
  | csu
  | hoc
  deriving DecidableEq, Repr

structure OrdItem where
  frame : Frame
  origin : Origin
  deriving DecidableEq, Repr

/-- What the field segment is sending (1.4): a poll of a station entry, an urgent or an ordinary frame. -/
inductive Transmission where
  | poll (index : Nat) (frame : Frame)
  | urgent (frame : Frame)
  | ordinary (item : OrdItem)
  deriving DecidableEq, Repr

/-- The segment state (1.4). In AWAITING_RESPONSE: the polled entry, the address the poll was sent with, and whether a
TABLE WRITE has written the polled entry while the window was open (R10). -/
inductive Segment where
  | idle
  | sending (t : Transmission)
  | awaiting (index : Nat) (addr : Nat) (rewritten : Bool)
  deriving DecidableEq, Repr

/-- The last-non-urgent mark (R9). -/
inductive NonUrgent where
  | poll
  | ordinary
  deriving DecidableEq, Repr

/-- The Site Link Port. -/
structure Slp where
  rx : List Byte
  queue : List SiteItem
  tx : Option SiteItem
  deriving DecidableEq, Repr

/-- The Field Segment Port. `pollPos = none` is BEFORE_FIRST (R8). -/
structure Fsp where
  rx : List Byte
  rxInWindow : Bool
  segment : Segment
  pollPos : Option Nat
  lastNonUrgent : NonUrgent
  urgent : List Frame
  ordinary : List OrdItem
  deriving DecidableEq, Repr

/-! ### Station and actuator tables (R18 to R20) -/

inductive StationKind where
  | probe
  | fireInput
  | reader
  | hatchUnit
  | courierTerminal
  | actuator
  | other
  deriving DecidableEq, Repr

inductive Role where
  | none
  | door
  | witness
  deriving DecidableEq, Repr

inductive Policy where
  | all
  | changes
  | none
  deriving DecidableEq, Repr

/-- A station table entry (R18); it is empty when its address is 0. -/
structure StationEntry where
  addr : Nat
  kind : StationKind
  zone : Option Nat
  role : Role
  index : Nat
  policy : Policy
  deriving DecidableEq, Repr

/-- The functions of the actuator table (R19). -/
inductive Function where
  | unassigned
  | humidifier
  | dehumidifier
  | damper
  | sounder
  | suppression
  deriving DecidableEq, Repr

/-- A stored payload: its length and its first bytes, at most 16 (R20). -/
structure StoredPayload where
  length : Nat
  bytes : List Byte
  deriving DecidableEq, Repr

/-- The runtime record of a station entry (R12, R20). -/
structure StationRuntime where
  missed : Nat
  silent : Bool
  lastForwarded : Option StoredPayload
  deriving DecidableEq, Repr

/-- The Classifier and Gate. -/
structure Cgt where
  stations : Tab StationEntry
  actuators : Tab Function
  runtime : Tab StationRuntime
  deriving DecidableEq, Repr

/-! ### Time base (R35 to R45) -/

/-- The interval timer record of R37. -/
structure Timer where
  load : Nat
  remaining : Nat
  running : Bool
  gated : Bool
  continuous : Bool
  retrigger : Bool
  pending : Bool
  deriving DecidableEq, Repr

/-- The Time Base with its 27 timers (R44). -/
structure Tmb where
  secondCount : Nat
  minuteClock : Minute
  release : Tab Timer
  step : Tab Timer
  dwell : Tab Timer
  supervision : Timer
  retry : Timer
  pulse : Timer
  deriving DecidableEq, Repr

/-! ### Climate (R46 to R54) -/

/-- A probe table entry (R46). -/
structure ProbeCal where
  rh : Int
  t : Int
  deriving DecidableEq, Repr

/-- A profile table entry (R51). -/
structure Profile where
  critLow : Nat
  low : Nat
  high : Nat
  critHigh : Nat
  margin : Nat
  hyst : Nat
  tLow : Int
  tHigh : Int
  tHyst : Nat
  persistence : Nat
  deriving DecidableEq, Repr

/-- The take limit of a zone (R53). -/
inductive TakeLimit where
  | warning
  | excursion
  deriving DecidableEq, Repr

/-- A zone table entry: climate fields (R53) and fire fields (R76); `coupled` holds the four slots. -/
structure ZoneEntry where
  profile : Nat
  takeLimit : TakeLimit
  exposureLimit : Nat
  coincidence : Nat
  fitted : Bool
  autoRelease : Bool
  releaseDelay : Nat
  coupledCount : Nat
  coupled : List Nat
  deriving DecidableEq, Repr

/-- The probe runtime record (R47): the calibrated values are present in VALID alone. -/
inductive ProbeState where
  | noSample
  | valid (rh : Nat) (t : Int)
  | fault
  | silent
  deriving DecidableEq, Repr

inductive ClimateState where
  | noData
  | normal
  | warning
  | excursion
  | critical
  deriving DecidableEq, Repr

/-- Zone RH, zone T and dew point (R55, R56). -/
structure Reading where
  rh : Nat
  t : Int
  td : Int
  deriving DecidableEq, Repr

/-- The zone climate record (R54); the commands are ON when true. -/
structure ClimateRec where
  state : ClimateState
  reading : Option Reading
  validCount : Nat
  candidate : Nat
  exposure : Nat
  exposed : Bool
  humidifier : Bool
  dehumidifier : Bool
  deriving DecidableEq, Repr

/-- The Climate Supervisor; the zone table is shared with the Fire Supervisor (10.3). -/
structure Cls where
  probes : Tab ProbeCal
  profiles : Tab Profile
  zones : Tab ZoneEntry
  probeState : Tab ProbeState
  climate : Tab ClimateRec
  deriving DecidableEq, Repr

/-! ### Fire (R70 to R78) -/

/-- The fire input kinds (R70). -/
inductive InputKind where
  | smoke
  | heat
  | callPoint
  | holdSwitch
  | releaseSwitch
  deriving DecidableEq, Repr

/-- The input stages (R71). -/
inductive Stage where
  | noReport
  | clear
  | low
  | high
  | fault
  | silent
  deriving DecidableEq, Repr

/-- The alarm causes (R80). -/
inductive Cause where
  | single
  | coincidence
  | heat
  | callPoint
  deriving DecidableEq, Repr

/-- The zone fire record (R78) but for its timer, which the time base holds; `coupledSources` rises strictly. -/
structure FireRec where
  state : FireState
  cause : Option Cause
  coupledSources : List Nat
  silenced : Bool
  unmonitored : Bool
  deriving DecidableEq, Repr

/-- The Fire Supervisor. -/
structure Frs where
  inputs : Tab InputKind
  stages : Tab Stage
  fire : Tab FireRec
  deriving DecidableEq, Repr

/-! ### Custody (R98 to R113) -/

/-- A class table entry (R98). -/
structure ClassEntry where
  baseHold : Nat
  kT : Nat
  kH : Nat
  loan : Nat
  deriving DecidableEq, Repr

/-- The custody state with the fields it carries (R100). -/
inductive Custody where
  | shelved
  | checkedOut (since : Minute) (due : Option Minute) (overdueReported : Bool)
  | consigned (number : Nat)
  | out
  | arriving (number : Nat)
  | acclimatizing (release : Minute)
  deriving DecidableEq, Repr

/-- A media record (R100); the hold set is its two members. -/
structure MediaRec where
  id : Ident
  cls : Nat
  home : Nat
  custody : Custody
  manual : Bool
  agent : Bool
  deriving DecidableEq, Repr

/-- The scan record (R107) with what the running pass has yet to report (R111): its starting minute, the gathered
entries and the number of notices it has offered. -/
structure ScanRec where
  position : Option Nat
  further : Bool
  began : Minute
  entries : List (Nat × Ident)
  offered : Nat
  deriving DecidableEq, Repr

/-- The sweep record (R112) with what the running sweep has yet to report (R113). -/
structure SweepRec where
  running : Option (Nat × Nat)
  queue : List Nat
  entries : List (Nat × Ident)
  offered : Nat
  deriving DecidableEq, Repr

/-- The Custody Unit. -/
structure Csu where
  classes : Tab ClassEntry
  media : Tab (Option MediaRec)
  scan : ScanRec
  sweep : SweepRec
  deriving DecidableEq, Repr

/-! ### Handovers (R120 to R123) -/

inductive HatchMode where
  | interlocked
  | paced
  | witnessed
  deriving DecidableEq, Repr

/-- A hatch table entry (R120); in use when its unit address is nonzero. -/
structure HatchEntry where
  unit : Nat
  terminal : Nat
  witness : Nat
  inner : Nat
  outer : Option Nat
  mode : HatchMode
  acceptTimeout : Nat
  openTimeout : Nat
  transferTimeout : Nat
  transferRetrigger : Bool
  closeTimeout : Nat
  equalizeTimeout : Nat
  dwell : Nat
  life : Nat
  margin : Nat
  deriving DecidableEq, Repr

/-- The last position of a hatch (R122). -/
inductive Position where
  | noReport
  | closedLocked
  | closedUnlocked
  | opened
  | fault
  deriving DecidableEq, Repr

/-- The hatch runtime record (R122) but for its timers and its queue; `urgent` is lock urgency URGENT. -/
structure HatchRuntime where
  position : Position
  unitSilent : Bool
  manual : Bool
  moved : Bool
  dwellDone : Bool
  unlockRef : Option Nat
  urgent : Bool
  deriving DecidableEq, Repr

inductive Direction where
  | outbound
  | inbound
  deriving DecidableEq, Repr

inductive ConsignState where
  | waiting
  | awaitCase
  | equalizing
  | offered
  | unlocking
  | transfer
  | closing
  | aborting
  deriving DecidableEq, Repr

/-- How a consignment ends (R126). -/
inductive HandoverEnd where
  | complete
  | aborted
  | expired
  | cancelled
  deriving DecidableEq, Repr

inductive AbortReason where
  | fire
  | timeout
  | condensation
  | cancelled
  | hatchForced
  | hatchFault
  deriving DecidableEq, Repr

inductive EndCause where
  | allPassed
  | done
  | transferTimeout
  deriving DecidableEq, Repr

inductive ItemStatus where
  | pending
  | passed
  | missing
  deriving DecidableEq, Repr

structure Item where
  id : Ident
  slot : Nat
  status : ItemStatus
  deriving DecidableEq, Repr

/-- The case figures of the first CASE (R123, R132). -/
structure CaseFigures where
  meanT : Int
  meanRh : Nat
  minutes : Nat
  deriving DecidableEq, Repr

/-- The frozen figures (R123, R135). -/
structure FrozenFigures where
  meanT : Int
  meanRh : Nat
  minutes : Nat
  innerT : Int
  innerRh : Nat
  deriving DecidableEq, Repr

/-- A consignment record (R123). `abort` holds the reason and the state aborted from. -/
structure Consignment where
  number : Nat
  direction : Direction
  hatch : Nat
  courier : Ident
  created : Minute
  state : ConsignState
  items : List Item
  acceptReceived : Bool
  confirmReceived : Bool
  caseFigures : Option CaseFigures
  caseTemp : Option Int
  frozen : Option FrozenFigures
  abort : Option (AbortReason × ConsignState)
  endCause : Option EndCause
  deriving DecidableEq, Repr

/-- The Handover Controller; the consignments stand in the order of their creation (log 19). -/
structure Hoc where
  hatches : Tab HatchEntry
  runtime : Tab HatchRuntime
  consignments : List Consignment
  deriving DecidableEq, Repr

/-! ### Alerts (R158, R159) -/

/-- The 23 alert kinds in the order of R159. -/
inductive AlertKind where
  | probeFault
  | stationSilent
  | zoneNoData
  | climateWarning
  | climateExcursion
  | climateCritical
  | zoneExposed
  | detectorFault
  | zoneUnmonitored
  | firePreAlarm
  | fireAlarm
  | releaseCountdown
  | released
  | supervisionLost
  | hatchForced
  | hatchOpenTooLong
  | handoverAborted
  | mediaOverdue
  | frameErrors
  | congestion
  | retryOverrun
  | foreignManagement
  | unknownReplySource
  deriving DecidableEq, Repr

/-- An alert table record (R158); `present` rises strictly. -/
structure AlertRec where
  latched : Bool
  count : Nat
  lastSource : Option Nat
  masked : Bool
  present : List Nat
  deriving DecidableEq, Repr

/-- The Alert Block. -/
structure Alb where
  alerts : Tab AlertRec
  held : Bool
  deriving DecidableEq, Repr

/-! ### Management (R172 to R183) -/

inductive PartState where
  | config
  | supervised
  | autonomous
  deriving DecidableEq, Repr

/-- The eight static tables in the order of R176. -/
inductive TableId where
  | station
  | profile
  | zone
  | probe
  | fireInput
  | actuator
  | hatch
  | cls
  deriving DecidableEq, Repr

/-- The five commissioning items (R180). -/
inductive StoreItem where
  | ownAddress
  | siteAddress
  | supervisionTimeout
  | retryInterval
  | vaultId
  deriving DecidableEq, Repr

/-- One figure for each commissioning item: the stored values, the burn counts or the live values. -/
structure Figures where
  ownAddress : Nat
  siteAddress : Nat
  supervisionTimeout : Nat
  retryInterval : Nat
  vaultId : Nat
  deriving DecidableEq, Repr

/-- The activation check in progress (R175): the request's tag and its expected check. -/
structure CheckRun where
  tag : Byte
  expected : Nat
  deriving DecidableEq, Repr

/-- The burn record (R180, R181). -/
structure BurnRec where
  item : StoreItem
  value : Nat
  tag : Byte
  deriving DecidableEq, Repr

/-- The Management Agent. `window = none` is open table NONE with pointer 0 (R172). -/
structure Mga where
  partState : PartState
  window : Option (TableId × Nat)
  check : Option CheckRun
  restartPending : Bool
  burn : Option BurnRec
  stored : Figures
  burns : Figures
  live : Figures
  deriving DecidableEq, Repr

/-! ### The part -/

/-- The state of the part. `handed` holds the events handed from block to block and not yet taken, each as the command
that takes it, oldest first; `pending` holds the commands from outside that wait, first in, first out (log 1). -/
structure State where
  slp : Slp
  fsp : Fsp
  cgt : Cgt
  tmb : Tmb
  cls : Cls
  frs : Frs
  csu : Csu
  hoc : Hoc
  alb : Alb
  mga : Mga
  handed : List Instr
  pending : List Instr
  deriving DecidableEq, Repr

/-- No command stops the part: every wrong frame, request or scan has an effect the spec gives. -/
inductive Fault where
  deriving DecidableEq, Repr

/-- Why a command has no next state. -/
inductive Refusal where
  /-- Raised by an arm of `exec` whose command has no meaning yet (safe: nothing is claimed of it); no arm raises it. -/
  | notModelled (mnemonic : String)
  deriving DecidableEq, Repr

/-! ### What an unlisted table entry holds: the values after reset -/

/-- An entry never written since reset holds zero in every field (R18). -/
def StationEntry.zero : StationEntry := ⟨0, .probe, some 0, .none, 0, .all⟩
/-- R12, R17, R20. -/
def StationRuntime.fresh : StationRuntime := ⟨0, false, none⟩
/-- R37. -/
def Timer.zero : Timer := ⟨0, 0, false, false, false, false, false⟩
/-- R46. -/
def ProbeCal.zero : ProbeCal := ⟨0, 0⟩
/-- R51. -/
def Profile.zero : Profile := ⟨0, 0, 0, 0, 0, 0, 0, 0, 0, 0⟩
/-- R53, R76. -/
def ZoneEntry.zero : ZoneEntry := ⟨0, .warning, 0, 0, false, false, 0, 0, [0, 0, 0, 0]⟩
/-- R54, after a reset. -/
def ClimateRec.fresh : ClimateRec := ⟨.noData, none, 0, 0, 0, false, false, false⟩
/-- R78, R75, after a reset. -/
def FireRec.fresh : FireRec := ⟨.quiet, none, [], false, false⟩
/-- R98. -/
def ClassEntry.zero : ClassEntry := ⟨0, 0, 0, 0⟩
/-- R107, R111. -/
def ScanRec.idle : ScanRec := ⟨none, false, 0, [], 0⟩
/-- R112, R113. -/
def SweepRec.idle : SweepRec := ⟨none, [], [], 0⟩
/-- R120. -/
def HatchEntry.zero : HatchEntry :=
  ⟨0, 0, 0, 0, some 0, .interlocked, 0, 0, 0, false, 0, 0, 0, 0, 0⟩
/-- R122, R34. -/
def HatchRuntime.fresh : HatchRuntime := ⟨.noReport, false, false, false, false, none, false⟩
/-- R158. -/
def AlertRec.fresh : AlertRec := ⟨false, 0, none, false, []⟩

/-- The stored values of a part as delivered (R180). -/
def Figures.delivered : Figures := ⟨251, 250, 30, 30, 0⟩
/-- No burns (R180). -/
def Figures.none : Figures := ⟨0, 0, 0, 0, 0⟩

/-- The part right after a reset whose commissioning store holds `stored` and `burns`, with `waiting` commands outside
(R17, R34, R45, R47, R54, R71, R78, R99, R107, R112, R122, R123, R158, R163, R183). -/
def State.afterReset (stored burns : Figures) (waiting : List Instr) : State where
  slp := ⟨[], [], none⟩
  fsp := ⟨[], false, .idle, none, .ordinary, [], []⟩
  cgt := ⟨[], [], []⟩
  tmb := ⟨0, 0, [], [], [], .zero, .zero, .zero⟩
  cls := ⟨[], [], [], [], []⟩
  frs := ⟨[], [], []⟩
  csu := ⟨[], [], .idle, .idle⟩
  hoc := ⟨[], [], []⟩
  alb := ⟨[], false⟩
  mga := ⟨.config, none, none, false, none, stored, burns, stored⟩
  handed := []
  pending := waiting

/-- The machine right after the first power-on of a part as delivered (R180, R183). -/
def State.reset : State := State.afterReset .delivered .none []

end Sys2Proof.Machine
end

