-- ==== Sys2Proof/Machine/Ops.lean ====
section
/-!
DEFINITION. The named operations over the state's tables, records and timers: every read and write of a table entry or
runtime record goes through here. Timers follow R37 to R43.
-/
namespace Sys2Proof

/-- ALARM, RELEASE_COUNTDOWN or RELEASED (R78). -/
def FireState.latched : FireState → Bool
  | .quiet | .preAlarm => false
  | .alarm | .releaseCountdown | .released => true

end Sys2Proof

namespace Sys2Proof.Machine

/-! ### Tables -/

/-- The value of entry `k`, `d` where it is not listed. -/
def Tab.read {α : Type} (d : α) : Tab α → Nat → α
  | [], _ => d
  | (j, v) :: t, k => if j = k then v else Tab.read d t k

/-- The table without entry `k`. -/
def Tab.erase {α : Type} : Tab α → Nat → Tab α
  | [], _ => []
  | (j, v) :: t, k => if j = k then Tab.erase t k else (j, v) :: Tab.erase t k

/-- `v` listed at entry `k`, before the first larger index. -/
def Tab.insert {α : Type} : Tab α → Nat → α → Tab α
  | [], k, v => [(k, v)]
  | (j, w) :: t, k, v => if k < j then (k, v) :: (j, w) :: t else (j, w) :: Tab.insert t k v

/-- Entry `k` set to `v`; a value equal to what an unlisted entry holds is not listed. -/
def Tab.write {α : Type} [DecidableEq α] (d : α) (t : Tab α) (k : Nat) (v : α) : Tab α :=
  if v = d then Tab.erase t k else Tab.insert (Tab.erase t k) k v

/-- The canonical form: indices rise strictly from at least `lo`, and no entry holds `d`. -/
def Tab.wfFrom {α : Type} [DecidableEq α] (d : α) : Nat → Tab α → Bool
  | _, [] => true
  | lo, (j, v) :: t => decide (lo ≤ j) && decide (v ≠ d) && Tab.wfFrom d (j + 1) t

/-- The canonical form of a table. -/
def Tab.wf {α : Type} [DecidableEq α] (d : α) (t : Tab α) : Bool := Tab.wfFrom d 0 t

/-! ### Sets of numbers, rising -/

def insertSorted : List Nat → Nat → List Nat
  | [], k => [k]
  | j :: t, k => if k < j then k :: j :: t else if k = j then j :: t else j :: insertSorted t k

def eraseNat (t : List Nat) (k : Nat) : List Nat := t.filter (fun j => j ≠ k)

/-! ### Interval timers (R37 to R42) -/

/-- A start (R38): the gate stays as it was. -/
def Timer.start (t : Timer) (load : Nat) (continuous retrigger : Bool) : Timer :=
  { t with load := load, remaining := load, running := true, continuous := continuous,
           retrigger := retrigger, pending := false }

/-- A trigger (R38). -/
def Timer.trigger (t : Timer) : Timer :=
  if t.running && !t.retrigger then t else { t with remaining := t.load, running := true }

/-- A stop (R39). -/
def Timer.stop (t : Timer) : Timer := { t with running := false, remaining := 0, pending := false }

/-- The gate set to the value of the gating condition (R40). -/
def Timer.setGate (t : Timer) (g : Bool) : Timer := { t with gated := g }

/-- The owner's acknowledgement of an expiry (R42). -/
def Timer.acknowledge (t : Timer) : Timer := { t with pending := false }

/-- The count falls: whether this advance brings the timer to expiry (R41). -/
def Timer.expires (t : Timer) : Bool := t.running && !t.gated && decide (t.remaining ≤ 1)

/-- One advance (R41): a timer that expires is stopped at 0 (single-cycle) or reloaded (continuous), with
expiry-pending set. -/
def Timer.advance (t : Timer) : Timer :=
  if t.expires then
    { t with pending := true,
             running := t.continuous,
             remaining := if t.continuous then t.load else 0 }
  else if t.running && !t.gated then { t with remaining := t.remaining - 1 }
  else t

/-! ### Commissioning items (R180) -/

def Figures.get (f : Figures) : StoreItem → Nat
  | .ownAddress => f.ownAddress
  | .siteAddress => f.siteAddress
  | .supervisionTimeout => f.supervisionTimeout
  | .retryInterval => f.retryInterval
  | .vaultId => f.vaultId

def Figures.set (f : Figures) (i : StoreItem) (v : Nat) : Figures :=
  match i with
  | .ownAddress => { f with ownAddress := v }
  | .siteAddress => { f with siteAddress := v }
  | .supervisionTimeout => { f with supervisionTimeout := v }
  | .retryInterval => { f with retryInterval := v }
  | .vaultId => { f with vaultId := v }

namespace State

/-! ### Table entries and runtime records, by index -/

def station (s : State) (i : Nat) : StationEntry := Tab.read .zero s.cgt.stations i
def setStation (s : State) (i : Nat) (e : StationEntry) : State :=
  { s with cgt := { s.cgt with stations := Tab.write .zero s.cgt.stations i e } }
def actuator (s : State) (i : Nat) : Function := Tab.read .unassigned s.cgt.actuators i
def setActuator (s : State) (i : Nat) (f : Function) : State :=
  { s with cgt := { s.cgt with actuators := Tab.write .unassigned s.cgt.actuators i f } }
def stationRuntime (s : State) (i : Nat) : StationRuntime := Tab.read .fresh s.cgt.runtime i
def setStationRuntime (s : State) (i : Nat) (r : StationRuntime) : State :=
  { s with cgt := { s.cgt with runtime := Tab.write .fresh s.cgt.runtime i r } }

def probeCal (s : State) (i : Nat) : ProbeCal := Tab.read .zero s.cls.probes i
def setProbeCal (s : State) (i : Nat) (e : ProbeCal) : State :=
  { s with cls := { s.cls with probes := Tab.write .zero s.cls.probes i e } }
def profile (s : State) (i : Nat) : Profile := Tab.read .zero s.cls.profiles i
def setProfile (s : State) (i : Nat) (e : Profile) : State :=
  { s with cls := { s.cls with profiles := Tab.write .zero s.cls.profiles i e } }
def zone (s : State) (z : Nat) : ZoneEntry := Tab.read .zero s.cls.zones z
def setZone (s : State) (z : Nat) (e : ZoneEntry) : State :=
  { s with cls := { s.cls with zones := Tab.write .zero s.cls.zones z e } }
def probeState (s : State) (i : Nat) : ProbeState := Tab.read .noSample s.cls.probeState i
def setProbeState (s : State) (i : Nat) (p : ProbeState) : State :=
  { s with cls := { s.cls with probeState := Tab.write .noSample s.cls.probeState i p } }
def climate (s : State) (z : Nat) : ClimateRec := Tab.read .fresh s.cls.climate z
def setClimate (s : State) (z : Nat) (c : ClimateRec) : State :=
  { s with cls := { s.cls with climate := Tab.write .fresh s.cls.climate z c } }

def inputKind (s : State) (i : Nat) : InputKind := Tab.read .smoke s.frs.inputs i
def setInputKind (s : State) (i : Nat) (k : InputKind) : State :=
  { s with frs := { s.frs with inputs := Tab.write .smoke s.frs.inputs i k } }
def inputStage (s : State) (i : Nat) : Stage := Tab.read .noReport s.frs.stages i
def setInputStage (s : State) (i : Nat) (g : Stage) : State :=
  { s with frs := { s.frs with stages := Tab.write .noReport s.frs.stages i g } }
def fire (s : State) (z : Nat) : FireRec := Tab.read .fresh s.frs.fire z
def setFire (s : State) (z : Nat) (f : FireRec) : State :=
  { s with frs := { s.frs with fire := Tab.write .fresh s.frs.fire z f } }

def classEntry (s : State) (i : Nat) : ClassEntry := Tab.read .zero s.csu.classes i
def setClassEntry (s : State) (i : Nat) (e : ClassEntry) : State :=
  { s with csu := { s.csu with classes := Tab.write .zero s.csu.classes i e } }
def mediaAt (s : State) (slot : Nat) : Option MediaRec := Tab.read none s.csu.media slot
def setMedia (s : State) (slot : Nat) (r : Option MediaRec) : State :=
  { s with csu := { s.csu with media := Tab.write none s.csu.media slot r } }

def hatch (s : State) (h : Nat) : HatchEntry := Tab.read .zero s.hoc.hatches h
def setHatch (s : State) (h : Nat) (e : HatchEntry) : State :=
  { s with hoc := { s.hoc with hatches := Tab.write .zero s.hoc.hatches h e } }
def hatchRuntime (s : State) (h : Nat) : HatchRuntime := Tab.read .fresh s.hoc.runtime h
def setHatchRuntime (s : State) (h : Nat) (r : HatchRuntime) : State :=
  { s with hoc := { s.hoc with runtime := Tab.write .fresh s.hoc.runtime h r } }

def releaseTimer (s : State) (z : Nat) : Timer := Tab.read .zero s.tmb.release z
def setReleaseTimer (s : State) (z : Nat) (t : Timer) : State :=
  { s with tmb := { s.tmb with release := Tab.write .zero s.tmb.release z t } }
def stepTimer (s : State) (h : Nat) : Timer := Tab.read .zero s.tmb.step h
def setStepTimer (s : State) (h : Nat) (t : Timer) : State :=
  { s with tmb := { s.tmb with step := Tab.write .zero s.tmb.step h t } }
def dwellTimer (s : State) (h : Nat) : Timer := Tab.read .zero s.tmb.dwell h
def setDwellTimer (s : State) (h : Nat) (t : Timer) : State :=
  { s with tmb := { s.tmb with dwell := Tab.write .zero s.tmb.dwell h t } }
def setSupervision (s : State) (t : Timer) : State := { s with tmb := { s.tmb with supervision := t } }
def setRetry (s : State) (t : Timer) : State := { s with tmb := { s.tmb with retry := t } }
def setPulse (s : State) (t : Timer) : State := { s with tmb := { s.tmb with pulse := t } }

def alertRec (s : State) (k : Nat) : AlertRec := Tab.read .fresh s.alb.alerts k
def setAlertRec (s : State) (k : Nat) (r : AlertRec) : State :=
  { s with alb := { s.alb with alerts := Tab.write .fresh s.alb.alerts k r } }

/-! ### Part state and time -/

/-- The ACTIVE states (0.3). -/
def active (s : State) : Bool := decide (s.mga.partState ≠ .config)

/-- "Now" of the custody rules (0.5). -/
def now (s : State) : Minute := s.tmb.minuteClock

/-! ### Stations and zones -/

/-- The non-empty station entries with their indices, in index order (R8, R18). -/
def stationList (s : State) : List (Nat × StationEntry) := s.cgt.stations.filter (fun p => p.2.addr ≠ 0)

/-- The station of an address: the entry of the lowest index (R30). An empty entry has no address to be found by. -/
def stationByAddr (s : State) (a : Nat) : Option StationEntry :=
  ((s.stationList.find? (fun p => p.2.addr = a)).map Prod.snd)

/-- The addresses of the ACTUATOR stations of a function in a zone, in station table index order (R19). -/
def actuatorsOf (s : State) (z : Nat) (f : Function → Bool) : List Nat :=
  (s.stationList.filter
    (fun p => p.2.kind = .actuator && p.2.zone = some z && f (s.actuator p.2.index))).map (fun p => p.2.addr)

/-- The FIRE_INPUT stations of a zone and a set of input kinds, in station table index order (R70). -/
def inputsOf (s : State) (z : Nat) (k : InputKind → Bool) : List StationEntry :=
  (s.stationList.filter
    (fun p => p.2.kind = .fireInput && p.2.zone = some z && k (s.inputKind p.2.index))).map Prod.snd

/-- The fire state of a zone. -/
def fireState (s : State) (z : Nat) : FireState := (s.fire z).state

/-- The fire state of a zone field: a station whose zone is NONE stands in no fire. -/
def fireStateOf (s : State) : Option Nat → FireState
  | some z => s.fireState z
  | none => .quiet

/-! ### Hatches and consignments -/

/-- The hatch numbers of entries in use, in index order (R120). -/
def hatchesInUse (s : State) : List (Nat × HatchEntry) := s.hoc.hatches.filter (fun p => p.2.unit ≠ 0)

/-- The hatch whose unit has an address (R24). -/
def hatchByUnit (s : State) (a : Nat) : Option (Nat × HatchEntry) := s.hatchesInUse.find? (fun p => p.2.unit = a)

/-- The hatch whose inner zone a zone is (R88, R121). -/
def hatchByInner (s : State) (z : Nat) : Option (Nat × HatchEntry) := s.hatchesInUse.find? (fun p => p.2.inner = z)

/-- The consignment beyond WAITING on a hatch (R123). -/
def activeOn (s : State) (h : Nat) : Option Consignment :=
  s.hoc.consignments.find? (fun c => c.hatch = h && c.state ≠ .waiting)

/-- The record of a consignment number. -/
def consignment (s : State) (n : Nat) : Option Consignment := s.hoc.consignments.find? (fun c => c.number = n)

/-- The consignment queue of a hatch, in order of creation (R123). -/
def hatchQueue (s : State) (h : Nat) : List Nat :=
  (s.hoc.consignments.filter (fun c => c.hatch = h)).map (fun c => c.number)

/-- The record of `c.number` replaced by `c`. -/
def setConsignment (s : State) (c : Consignment) : State :=
  { s with hoc := { s.hoc with
      consignments := s.hoc.consignments.map (fun x => if x.number = c.number then c else x) } }

def addConsignment (s : State) (c : Consignment) : State :=
  { s with hoc := { s.hoc with consignments := s.hoc.consignments ++ [c] } }

def dropConsignment (s : State) (n : Nat) : State :=
  { s with hoc := { s.hoc with consignments := s.hoc.consignments.filter (fun x => x.number ≠ n) } }

/-! ### Media -/

/-- The slot and record of a media ID (R99). -/
def mediaById (s : State) (id : Ident) : Option (Nat × MediaRec) :=
  s.csu.media.findSome? (fun p => match p.2 with
    | some r => if r.id = id then some (p.1, r) else none
    | none => none)

/-- The lowest slot from `k` on that the rising list does not name. -/
def lowestFrom {α : Type} : Nat → Tab α → Nat
  | k, [] => k
  | k, (j, _) :: t => if j = k then lowestFrom (k + 1) t else k

/-- The lowest free slot, if any (R116). -/
def lowestFreeSlot (s : State) : Option Nat :=
  let k := lowestFrom 0 s.csu.media
  if k < Config.slotCount then some k else none

/-! ### Events handed between blocks -/

/-- A block hands an event to another: the command that takes it waits (log 1). -/
def hand (s : State) (c : Instr) : State := { s with handed := s.handed ++ [c] }

/-- The event is taken: its oldest copy no longer waits. -/
def takeHanded (s : State) (c : Instr) : State := { s with handed := s.handed.erase c }

/-- Whether the event has been handed and not yet taken. -/
def isHanded (s : State) (c : Instr) : Bool := decide (c ∈ s.handed)

end State

/-! ### Climate severity (R54) -/

/-- The severity order of the states that carry data; NO_DATA stands outside it. -/
def ClimateState.severity : ClimateState → Nat
  | .noData => 0
  | .normal => 1
  | .warning => 2
  | .excursion => 3
  | .critical => 4

/-- A zone whose climate bars a take or an arrival: NO_DATA, or more severe than the take limit (R103, R130). -/
def climateBars (c : ClimateState) (l : TakeLimit) : Bool :=
  match c, l with
  | .noData, _ => true
  | c, .warning => decide (ClimateState.warning.severity < c.severity)
  | c, .excursion => decide (ClimateState.excursion.severity < c.severity)

end Sys2Proof.Machine
end

