-- ==== Sys2Proof/Machine/Operands.lean ====
section
/-!
DEFINITION. The forms in which operands reach the part and results leave it: byte order, codes, frames and their check
value, payload fields, table images with their clamps and refusals, and the reading of a REQUEST (R1, R2, R18, R46, R51,
R53, R70, R76, R98, R120, R168, R184, R186, chapter 11).
-/
namespace Sys2Proof

/-- The source value of a link: SITE 0, FIELD 1 (11.5). -/
def Link.source : Link → Nat
  | .site => 0
  | .field => 1

/-- The codes of the fire states (11.5). -/
def FireState.code : FireState → Nat
  | .quiet => 0
  | .preAlarm => 1
  | .alarm => 2
  | .releaseCountdown => 3
  | .released => 4

end Sys2Proof

namespace Sys2Proof.Machine

/-! ### Numbers as bytes (R184) -/

def enc1 (n : Nat) : List Byte := [byteOf n]
def enc2 (n : Nat) : List Byte := [byteOf (n / 256), byteOf n]
def enc4 (m : Minute) : List Byte :=
  [byteOf (m.toNat / 16777216), byteOf (m.toNat / 65536), byteOf (m.toNat / 256), byteOf m.toNat]
/-- A signed field of two bytes, two's complement. -/
def encSigned2 (i : Int) : List Byte := enc2 (BitVec.ofInt 16 i).toNat
/-- A signed field of one byte. -/
def encSigned1 (i : Int) : List Byte := [BitVec.ofInt 8 i]
def encBool (b : Bool) : List Byte := [if b then 1 else 0]
def zeros (n : Nat) : List Byte := List.replicate n 0
/-- A zone field: FFh for NONE. -/
def encZone : Option Nat → List Byte
  | some z => enc1 z
  | none => enc1 0xFF
/-- An optional field with a presence byte: absent fields are sent as zero bytes of their width. -/
def encPresence (width : Nat) : Option (List Byte) → List Byte
  | some b => 1 :: b
  | none => 0 :: zeros width
/-- An optional field whose presence the record tells otherwise. -/
def encOptional (width : Nat) : Option (List Byte) → List Byte
  | some b => b
  | none => zeros width
/-- A set or list: a count byte and the members in order (R187). -/
def encList (xs : List (List Byte)) : List Byte := enc1 xs.length ++ xs.flatten
/-- A set of zones, zone z in bit z (R187, ZONE notice). -/
def encZoneSet (zs : List Nat) : List Byte := enc2 (zs.foldl (fun n z => n + 2 ^ z) 0)

/-- Byte `i` of a payload, zero beyond its end. -/
def byteAt (p : List Byte) (i : Nat) : Byte := p.getD i 0
def nat1 (p : List Byte) (i : Nat) : Nat := (byteAt p i).toNat
/-- A number of two bytes, most significant first. -/
def nat2 (p : List Byte) (i : Nat) : Nat := nat1 p i * 256 + nat1 p (i + 1)
def signed1 (p : List Byte) (i : Nat) : Int := (byteAt p i).toInt
def signed2 (p : List Byte) (i : Nat) : Int := (BitVec.ofNat 16 (nat2 p i)).toInt
/-- `n` bytes from offset `i`, missing ones as zero. -/
def field (p : List Byte) (i n : Nat) : List Byte := (List.range n).map (fun k => byteAt p (i + k))

/-- A character of an identifier: 0–9 or A–Z (R184). -/
def identChar (b : Byte) : Bool :=
  (decide (0x30 ≤ b.toNat) && decide (b.toNat ≤ 0x39)) || (decide (0x41 ≤ b.toNat) && decide (b.toNat ≤ 0x5A))
def identOk (x : Ident) : Bool := decide (x.length = 8) && x.all identChar

/-! ### Clamps (0.5) -/

def clampNat (lo hi n : Nat) : Nat := if n < lo then lo else if hi < n then hi else n
def clampInt (lo hi i : Int) : Int := if i < lo then lo else if hi < i then hi else i
/-- The range of a temperature (0.5). -/
def clampT (i : Int) : Int := clampInt (-400) 850 i
/-- The range of a relative humidity (0.5). -/
def clampRh (n : Nat) : Nat := clampNat 0 1000 n

/-! ### The check value (R2) -/

def crcBit (r : CheckWord) (b : Bool) : CheckWord :=
  if r.msb = b then r <<< 1 else (r <<< 1) ^^^ 0x6F63
/-- One byte, most significant bit first. -/
def crcByte (r : CheckWord) (x : Byte) : CheckWord :=
  [7, 6, 5, 4, 3, 2, 1, 0].foldl (fun r i => crcBit r (x.getLsbD i)) r
def checkValue (bytes : List Byte) : CheckWord := bytes.foldl crcByte 0xFFFF

/-! ### Frames (R1) -/

/-- The bytes of a frame up to its last payload byte. -/
def Frame.body (f : Frame) : List Byte := enc1 f.dst ++ enc1 f.src ++ enc1 f.kind ++ enc1 f.payload.length ++ f.payload
/-- The bytes of a frame as they are sent: the check value last, high byte first. -/
def Frame.image (f : Frame) : List Byte := f.body ++ enc2 (checkValue f.body).toNat

/-- How many bytes the frame that begins `buf` takes, once all of them are there (R3). -/
def completeLength (buf : List Byte) : Option Nat :=
  if buf.length < 4 then none
  else
    let n := 4 + nat1 buf 3 + 2
    if n ≤ buf.length then some n else none

/-- A complete frame read from its bytes; none where its check fails (R2, R3). -/
def readFrame (bytes : List Byte) : Option Frame :=
  let n := nat1 bytes 3
  if bytes.drop (4 + n) = enc2 (checkValue (bytes.take (4 + n))).toNat then
    some ⟨nat1 bytes 0, nat1 bytes 1, nat1 bytes 2, (bytes.take (4 + n)).drop 4⟩
  else none

/-! ### Frame kinds and payload codes (11.2, 11.3) -/

namespace Kind
def poll : Nat := 0x01
def idle : Nat := 0x02
def sample : Nat := 0x10
def stage : Nat := 0x11
def position : Nat := 0x12
def scan : Nat := 0x13
def arrive : Nat := 0x14
def caseFigures : Nat := 0x15
def accept : Nat := 0x16
def confirm : Nat := 0x17
def done : Nat := 0x18
def answer : Nat := 0x20
def offer : Nat := 0x21
def drive : Nat := 0x22
def sound : Nat := 0x23
def hatch : Nat := 0x24
def release : Nat := 0x25
def request : Nat := 0x30
def reply : Nat := 0x31
def notice : Nat := 0x32
end Kind

/-- The broadcast address (0.5). -/
def broadcast : Nat := 255

namespace Drive
def off : Nat := 0
def on : Nat := 1
def close : Nat := 2
end Drive

namespace Sound
def off : Nat := 0
def pulseSlow : Nat := 1
def pulseFast : Nat := 2
def continuous : Nat := 3
def chime : Nat := 4
end Sound

namespace HatchCommand
def lock : Nat := 0
def unlock : Nat := 1
end HatchCommand

/-- The intents of a SCAN (11.3). -/
inductive Intent where
  | take
  | ret
  | handover
  | receive
  deriving DecidableEq, Repr

def Intent.ofCode : Nat → Option Intent
  | 0 => some .take
  | 1 => some .ret
  | 2 => some .handover
  | 3 => some .receive
  | _ => none

/-- The intent of a SCAN payload, where it holds one of the four (R25, R102). -/
def scanIntent (p : List Byte) : Option Intent := if p = [] then none else Intent.ofCode (nat1 p 0)

/-- The outcomes of an ANSWER (11.3). -/
inductive Outcome where
  | granted
  | passed
  | recorded
  | supervision
  | unknownMedia
  | wrongZone
  | state
  | hold
  | fire
  | exposed
  | climate
  | wrongStation
  | malformed
  | notAtHatch
  | busy
  | noConsignment
  | hatch
  | notExpected
  | notInConsignment
  | duplicate
  deriving DecidableEq, Repr

def Outcome.code : Outcome → Nat
  | .granted => 0x00
  | .passed => 0x01
  | .recorded => 0x02
  | .supervision => 0x03
  | .unknownMedia => 0x04
  | .wrongZone => 0x05
  | .state => 0x06
  | .hold => 0x07
  | .fire => 0x08
  | .exposed => 0x09
  | .climate => 0x0A
  | .wrongStation => 0x0B
  | .malformed => 0x0C
  | .notAtHatch => 0x0D
  | .busy => 0x0E
  | .noConsignment => 0x0F
  | .hatch => 0x10
  | .notExpected => 0x11
  | .notInConsignment => 0x12
  | .duplicate => 0x13

/-- The steps an ANSWER echoes (11.3). -/
inductive StepKind where
  | arrive
  | caseFigures
  | accept
  | confirm
  | done
  deriving DecidableEq, Repr

def StepKind.code : StepKind → Nat
  | .arrive => 0x10
  | .caseFigures => 0x11
  | .accept => 0x12
  | .confirm => 0x13
  | .done => 0x14

/-- The stage a STAGE payload reports; a bad length or code is a report of FAULT (R71). -/
def stageOfPayload (p : List Byte) : Stage :=
  if p.length ≠ 1 then .fault
  else match nat1 p 0 with
    | 0 => .clear
    | 1 => .low
    | 2 => .high
    | _ => .fault

def Stage.code : Stage → Nat
  | .clear => 0
  | .low => 1
  | .high => 2
  | .fault => 3
  | .noReport => 4
  | .silent => 5

/-- The position a POSITION payload reports; a bad length or code is a report of FAULT (R122). -/
def positionOfPayload (p : List Byte) : Position :=
  if p.length ≠ 1 then .fault
  else match nat1 p 0 with
    | 0 => .closedLocked
    | 1 => .closedUnlocked
    | 2 => .opened
    | _ => .fault

def Position.code : Position → Nat
  | .closedLocked => 0
  | .closedUnlocked => 1
  | .opened => 2
  | .fault => 3
  | .noReport => 4

/-! ### Codes of records and notices (11.5, R187) -/

def ClimateState.code : ClimateState → Nat
  | .noData => 0
  | .normal => 1
  | .warning => 2
  | .excursion => 3
  | .critical => 4

def Cause.code : Cause → Nat
  | .single => 0
  | .coincidence => 1
  | .heat => 2
  | .callPoint => 3

def Custody.code : Custody → Nat
  | .shelved => 0
  | .checkedOut _ _ _ => 1
  | .consigned _ => 2
  | .out => 3
  | .arriving _ => 4
  | .acclimatizing _ => 5

def ConsignState.code : ConsignState → Nat
  | .waiting => 0
  | .awaitCase => 1
  | .equalizing => 2
  | .offered => 3
  | .unlocking => 4
  | .transfer => 5
  | .closing => 6
  | .aborting => 7

def HandoverEnd.code : HandoverEnd → Nat
  | .complete => 8
  | .aborted => 9
  | .expired => 10
  | .cancelled => 11

def AbortReason.code : AbortReason → Nat
  | .fire => 1
  | .timeout => 2
  | .condensation => 3
  | .cancelled => 4
  | .hatchForced => 5
  | .hatchFault => 6

def EndCause.code : EndCause → Nat
  | .allPassed => 1
  | .done => 2
  | .transferTimeout => 3

def ItemStatus.code : ItemStatus → Nat
  | .pending => 0
  | .passed => 1
  | .missing => 2

def Direction.code : Direction → Nat
  | .outbound => 0
  | .inbound => 1

def Direction.ofCode : Nat → Option Direction
  | 0 => some .outbound
  | 1 => some .inbound
  | _ => none

def PartState.code : PartState → Nat
  | .config => 0
  | .supervised => 1
  | .autonomous => 2

def ProbeState.code : ProbeState → Nat
  | .noSample => 0
  | .valid _ _ => 1
  | .fault => 2
  | .silent => 3

/-- Why the command gate blocks a frame (R30). -/
inductive BlockReason where
  | releaseReserved
  | broadcast
  | fireState
  | autonomous
  | handoverActive
  deriving DecidableEq, Repr

def BlockReason.code : BlockReason → Nat
  | .releaseReserved => 0
  | .broadcast => 1
  | .fireState => 2
  | .autonomous => 3
  | .handoverActive => 4

/-! ### Alert kinds (R159, 11.4, 11.5) -/

namespace AlertKind

def code : AlertKind → Nat
  | .probeFault => 0
  | .stationSilent => 1
  | .zoneNoData => 2
  | .climateWarning => 3
  | .climateExcursion => 4
  | .climateCritical => 5
  | .zoneExposed => 6
  | .detectorFault => 7
  | .zoneUnmonitored => 8
  | .firePreAlarm => 9
  | .fireAlarm => 10
  | .releaseCountdown => 11
  | .released => 12
  | .supervisionLost => 13
  | .hatchForced => 14
  | .hatchOpenTooLong => 15
  | .handoverAborted => 16
  | .mediaOverdue => 17
  | .frameErrors => 18
  | .congestion => 19
  | .retryOverrun => 20
  | .foreignManagement => 21
  | .unknownReplySource => 22

/-- The kinds in code order. -/
def all : List AlertKind :=
  [.probeFault, .stationSilent, .zoneNoData, .climateWarning, .climateExcursion, .climateCritical, .zoneExposed,
   .detectorFault, .zoneUnmonitored, .firePreAlarm, .fireAlarm, .releaseCountdown, .released, .supervisionLost,
   .hatchForced, .hatchOpenTooLong, .handoverAborted, .mediaOverdue, .frameErrors, .congestion, .retryOverrun,
   .foreignManagement, .unknownReplySource]

/-- The class: condition kinds are raised and lowered by source, event kinds raised only (R159). -/
def isCondition : AlertKind → Bool
  | .hatchForced | .hatchOpenTooLong | .handoverAborted | .mediaOverdue | .frameErrors | .congestion
  | .retryOverrun | .foreignManagement | .unknownReplySource => false
  | _ => true

/-- The output class (R159). -/
def isHeld : AlertKind → Bool
  | .climateCritical | .zoneUnmonitored | .fireAlarm | .releaseCountdown | .released | .supervisionLost => true
  | _ => false

/-- FIRE_ALARM, RELEASE_COUNTDOWN and RELEASED are unmaskable (R159). -/
def unmaskable : AlertKind → Bool
  | .fireAlarm | .releaseCountdown | .released => true
  | _ => false

/-- The source type's code (R159, 11.5): ZONE 0, STATION 1, SLOT 2, HATCH 3, LINK 4. -/
def sourceType : AlertKind → Nat
  | .probeFault | .stationSilent | .detectorFault | .retryOverrun | .foreignManagement | .unknownReplySource => 1
  | .zoneNoData | .climateWarning | .climateExcursion | .climateCritical | .zoneExposed | .zoneUnmonitored
  | .firePreAlarm | .fireAlarm | .releaseCountdown | .released => 0
  | .mediaOverdue => 2
  | .hatchForced | .hatchOpenTooLong | .handoverAborted => 3
  | .supervisionLost | .frameErrors | .congestion => 4

end AlertKind

/-! ### REQUEST kinds, statuses, reasons, items (11.4) -/

namespace Req
def ident : Nat := 0x01
def read : Nat := 0x02
def tableOpen : Nat := 0x03
def tableWrite : Nat := 0x04
def tableRead : Nat := 0x05
def activate : Nat := 0x06
def deactivate : Nat := 0x07
def restart : Nat := 0x08
def zoneProfile : Nat := 0x10
def zoneClearExposure : Nat := 0x11
def zoneFireReset : Nat := 0x12
def zoneRelease : Nat := 0x13
def zoneSilence : Nat := 0x14
def mediaEnter : Nat := 0x20
def mediaDelete : Nat := 0x21
def mediaMove : Nat := 0x22
def mediaHoldSet : Nat := 0x23
def mediaHoldClear : Nat := 0x24
def mediaQuery : Nat := 0x25
def consign : Nat := 0x30
def consignCancel : Nat := 0x31
def clearAlerts : Nat := 0x40
def setMask : Nat := 0x41
def resume : Nat := 0x42
def storeBurn : Nat := 0x50
def setLive : Nat := 0x51
end Req

/-- The statuses of a REPLY (R169). -/
inductive Status where
  | done
  | refused
  | malformed
  | notFound
  | full
  | busy
  | exhausted
  | stillActive
  | range
  deriving DecidableEq, Repr

def Status.code : Status → Nat
  | .done => 0
  | .refused => 1
  | .malformed => 2
  | .notFound => 3
  | .full => 4
  | .busy => 5
  | .exhausted => 6
  | .stillActive => 7
  | .range => 8

/-- The reasons of status REFUSED (11.4). -/
inductive Reason where
  | notInConfig
  | notActive
  | autonomous
  | notAutonomous
  | tableCheck
  | tableConsistency
  | badEntry
  | noWindow
  | handoverActive
  | fireActive
  | addressClash
  | duplicate
  | duplicateItem
  | state
  | hold
  | noHatch
  | fire
  | notSilenceable
  | notFitted
  | notInAlarm
  | alreadyReleasing
  | notLatched
  | detectorsActive
  | unmaskable
  deriving DecidableEq, Repr

def Reason.code : Reason → Nat
  | .notInConfig => 0x01
  | .notActive => 0x02
  | .autonomous => 0x03
  | .notAutonomous => 0x04
  | .tableCheck => 0x05
  | .tableConsistency => 0x06
  | .badEntry => 0x07
  | .noWindow => 0x08
  | .handoverActive => 0x09
  | .fireActive => 0x0A
  | .addressClash => 0x0B
  | .duplicate => 0x0C
  | .duplicateItem => 0x0D
  | .state => 0x0E
  | .hold => 0x0F
  | .noHatch => 0x10
  | .fire => 0x11
  | .notSilenceable => 0x12
  | .notFitted => 0x13
  | .notInAlarm => 0x14
  | .alreadyReleasing => 0x15
  | .notLatched => 0x16
  | .detectorsActive => 0x17
  | .unmaskable => 0x18

def StoreItem.all : List StoreItem := [.ownAddress, .siteAddress, .supervisionTimeout, .retryInterval, .vaultId]

def StoreItem.code : StoreItem → Nat
  | .ownAddress => 0
  | .siteAddress => 1
  | .supervisionTimeout => 2
  | .retryInterval => 3
  | .vaultId => 4

def StoreItem.ofCode : Nat → Option StoreItem
  | 0 => some .ownAddress
  | 1 => some .siteAddress
  | 2 => some .supervisionTimeout
  | 3 => some .retryInterval
  | 4 => some .vaultId
  | _ => none

/-- The value an item takes for a value given, none where it is answered RANGE (R180). -/
def StoreItem.taken : StoreItem → Nat → Option Nat
  | .ownAddress, v => if 1 ≤ v ∧ v ≤ 254 then some v else none
  | .siteAddress, v => if 1 ≤ v ∧ v ≤ 254 then some v else none
  | .supervisionTimeout, v => some (if v = 0 then 0 else clampNat 5 250 v)
  | .retryInterval, v => some (clampNat 10 250 v)
  | .vaultId, v => some v

/-! ### Tables and their images (R176, 11.6, R186) -/

namespace TableId

def all : List TableId := [.station, .profile, .zone, .probe, .fireInput, .actuator, .hatch, .cls]

def code : TableId → Nat
  | .station => 0
  | .profile => 1
  | .zone => 2
  | .probe => 3
  | .fireInput => 4
  | .actuator => 5
  | .hatch => 6
  | .cls => 7

def ofCode : Nat → Option TableId
  | 0 => some .station
  | 1 => some .profile
  | 2 => some .zone
  | 3 => some .probe
  | 4 => some .fireInput
  | 5 => some .actuator
  | 6 => some .hatch
  | 7 => some .cls
  | _ => none

/-- Entries of the table (10.3). -/
def size : TableId → Nat
  | .station => 192
  | .profile => 4
  | .zone => 16
  | .probe => 64
  | .fireInput => 96
  | .actuator => 64
  | .hatch => 4
  | .cls => 8

/-- Bytes of one entry image (11.6). -/
def imageSize : TableId → Nat
  | .station => 6
  | .profile => 16
  | .zone => 13
  | .probe => 2
  | .fireInput => 1
  | .actuator => 1
  | .hatch => 21
  | .cls => 6

end TableId

def StationKind.code : StationKind → Nat
  | .probe => 0
  | .fireInput => 1
  | .reader => 2
  | .hatchUnit => 3
  | .courierTerminal => 4
  | .actuator => 5
  | .other => 6

def StationKind.ofCode : Nat → Option StationKind
  | 0 => some .probe
  | 1 => some .fireInput
  | 2 => some .reader
  | 3 => some .hatchUnit
  | 4 => some .courierTerminal
  | 5 => some .actuator
  | 6 => some .other
  | _ => none

def Role.code : Role → Nat
  | .none => 0
  | .door => 1
  | .witness => 2

def Role.ofCode : Nat → Option Role
  | 0 => some .none
  | 1 => some .door
  | 2 => some .witness
  | _ => Option.none

def Policy.code : Policy → Nat
  | .all => 0
  | .changes => 1
  | .none => 2

def Policy.ofCode : Nat → Option Policy
  | 0 => some .all
  | 1 => some .changes
  | 2 => some .none
  | _ => Option.none

def Function.code : Function → Nat
  | .unassigned => 0
  | .humidifier => 1
  | .dehumidifier => 2
  | .damper => 3
  | .sounder => 4
  | .suppression => 5

def Function.ofCode : Nat → Option Function
  | 0 => some .unassigned
  | 1 => some .humidifier
  | 2 => some .dehumidifier
  | 3 => some .damper
  | 4 => some .sounder
  | 5 => some .suppression
  | _ => none

def InputKind.code : InputKind → Nat
  | .smoke => 0
  | .heat => 1
  | .callPoint => 2
  | .holdSwitch => 3
  | .releaseSwitch => 4

def InputKind.ofCode : Nat → Option InputKind
  | 0 => some .smoke
  | 1 => some .heat
  | 2 => some .callPoint
  | 3 => some .holdSwitch
  | 4 => some .releaseSwitch
  | _ => none

def TakeLimit.code : TakeLimit → Nat
  | .warning => 0
  | .excursion => 1

def TakeLimit.ofCode : Nat → Option TakeLimit
  | 0 => some .warning
  | 1 => some .excursion
  | _ => none

def HatchMode.code : HatchMode → Nat
  | .interlocked => 0
  | .paced => 1
  | .witnessed => 2

def HatchMode.ofCode : Nat → Option HatchMode
  | 0 => some .interlocked
  | 1 => some .paced
  | 2 => some .witnessed
  | _ => none

/-- NO 00h, YES 01h (11.6). -/
def yesNoOfCode : Nat → Option Bool
  | 0 => some false
  | 1 => some true
  | _ => none

/-- A zone field that must name a zone. -/
def zoneOfCode (n : Nat) : Option Nat := if n < Config.zoneCount then some n else none

/-- A zone field that allows NONE; the outer none is a refused code. -/
def zoneOrNoneOfCode (n : Nat) : Option (Option Nat) :=
  if n = 0xFF then some none else if n < Config.zoneCount then some (some n) else none

/-- An address field that allows 0..254. -/
def addrOfCode (n : Nat) : Option Nat := if n ≤ 254 then some n else none

/-- R18, last column: the kind index clamped to the range of the kind, 0 for kinds that have none. -/
def clampKindIndex (k : StationKind) (n : Nat) : Nat :=
  match k with
  | .probe => clampNat 0 63 n
  | .fireInput => clampNat 0 95 n
  | .actuator => clampNat 0 63 n
  | _ => 0

/-- A station entry from its image; none is BAD_ENTRY (R18). -/
def StationEntry.ofImage (p : List Byte) : Option StationEntry := do
  let addr ← addrOfCode (nat1 p 0)
  let kind ← StationKind.ofCode (nat1 p 1)
  let zone ← zoneOrNoneOfCode (nat1 p 2)
  let role ← Role.ofCode (nat1 p 3)
  let policy ← Policy.ofCode (nat1 p 5)
  return ⟨addr, kind, zone, role, clampKindIndex kind (nat1 p 4), policy⟩

def StationEntry.image (e : StationEntry) : List Byte :=
  enc1 e.addr ++ enc1 e.kind.code ++ encZone e.zone ++ enc1 e.role.code ++ enc1 e.index ++ enc1 e.policy.code

/-- R51: every field is clamped; no code can be refused. -/
def Profile.ofImage (p : List Byte) : Profile where
  critLow := clampRh (nat2 p 0)
  low := clampRh (nat2 p 2)
  high := clampRh (nat2 p 4)
  critHigh := clampRh (nat2 p 6)
  margin := clampNat 0 100 (nat1 p 8)
  hyst := clampNat 0 50 (nat1 p 9)
  tLow := clampT (signed2 p 10)
  tHigh := clampT (signed2 p 12)
  tHyst := clampNat 0 50 (nat1 p 14)
  persistence := clampNat 1 15 (nat1 p 15)

def Profile.image (e : Profile) : List Byte :=
  enc2 e.critLow ++ enc2 e.low ++ enc2 e.high ++ enc2 e.critHigh ++ enc1 e.margin ++ enc1 e.hyst
    ++ encSigned2 e.tLow ++ encSigned2 e.tHigh ++ enc1 e.tHyst ++ enc1 e.persistence

/-- R53, R76. -/
def ZoneEntry.ofImage (p : List Byte) : Option ZoneEntry := do
  let limit ← TakeLimit.ofCode (nat1 p 1)
  let fitted ← yesNoOfCode (nat1 p 5)
  let auto ← yesNoOfCode (nat1 p 6)
  let c0 ← zoneOfCode (nat1 p 9)
  let c1 ← zoneOfCode (nat1 p 10)
  let c2 ← zoneOfCode (nat1 p 11)
  let c3 ← zoneOfCode (nat1 p 12)
  return ⟨clampNat 0 3 (nat1 p 0), limit, nat2 p 2, clampNat 0 4 (nat1 p 4), fitted, auto,
    clampNat 10 120 (nat1 p 7), clampNat 0 4 (nat1 p 8), [c0, c1, c2, c3]⟩

def ZoneEntry.image (e : ZoneEntry) : List Byte :=
  enc1 e.profile ++ enc1 e.takeLimit.code ++ enc2 e.exposureLimit ++ enc1 e.coincidence ++ encBool e.fitted
    ++ encBool e.autoRelease ++ enc1 e.releaseDelay ++ enc1 e.coupledCount
    ++ (List.range 4).map (fun i => byteOf (e.coupled.getD i 0))

/-- The coupled list: the first coupled zone count slots (R76). -/
def ZoneEntry.coupledList (e : ZoneEntry) : List Nat := e.coupled.take e.coupledCount

/-- R46. -/
def ProbeCal.ofImage (p : List Byte) : ProbeCal :=
  ⟨clampInt (-64) 63 (signed1 p 0), clampInt (-32) 31 (signed1 p 1)⟩

def ProbeCal.image (e : ProbeCal) : List Byte := encSigned1 e.rh ++ encSigned1 e.t

/-- R120. A courier terminal or witness reader of 0 or 255 is refused for an entry in use. -/
def HatchEntry.ofImage (p : List Byte) : Option HatchEntry := do
  let unit ← addrOfCode (nat1 p 0)
  let station (n : Nat) : Option Nat := if unit = 0 ∨ (1 ≤ n ∧ n ≤ 254) then some n else none
  let terminal ← station (nat1 p 1)
  let witness ← station (nat1 p 2)
  let inner ← zoneOfCode (nat1 p 3)
  let outer ← zoneOrNoneOfCode (nat1 p 4)
  let mode ← HatchMode.ofCode (nat1 p 5)
  let retrigger ← yesNoOfCode (nat1 p 12)
  return ⟨unit, terminal, witness, inner, outer, mode, clampNat 10 600 (nat2 p 6), clampNat 5 120 (nat2 p 8),
    clampNat 30 1800 (nat2 p 10), retrigger, clampNat 5 300 (nat2 p 13), clampNat 60 3600 (nat2 p 15),
    clampNat 1 30 (nat1 p 17), clampNat 0 10080 (nat2 p 18), clampNat 0 100 (nat1 p 20)⟩

def HatchEntry.image (e : HatchEntry) : List Byte :=
  enc1 e.unit ++ enc1 e.terminal ++ enc1 e.witness ++ enc1 e.inner ++ encZone e.outer ++ enc1 e.mode.code
    ++ enc2 e.acceptTimeout ++ enc2 e.openTimeout ++ enc2 e.transferTimeout ++ encBool e.transferRetrigger
    ++ enc2 e.closeTimeout ++ enc2 e.equalizeTimeout ++ enc1 e.dwell ++ enc2 e.life ++ enc1 e.margin

/-- R98. -/
def ClassEntry.ofImage (p : List Byte) : ClassEntry :=
  ⟨clampNat 0 1023 (nat2 p 0), clampNat 0 63 (nat1 p 2), clampNat 0 63 (nat1 p 3), nat2 p 4⟩

def ClassEntry.image (e : ClassEntry) : List Byte := enc2 e.baseHold ++ enc1 e.kT ++ enc1 e.kH ++ enc2 e.loan

/-- Whether TABLE WRITE takes an entry image, that is, refuses none of its codes (R173 check 5). -/
def imageAccepted (t : TableId) (p : List Byte) : Bool :=
  match t with
  | .station => (StationEntry.ofImage p).isSome
  | .zone => (ZoneEntry.ofImage p).isSome
  | .fireInput => (InputKind.ofCode (nat1 p 0)).isSome
  | .actuator => (Function.ofCode (nat1 p 0)).isSome
  | .hatch => (HatchEntry.ofImage p).isSome
  | .profile | .probe | .cls => true

/-- The stored image of a table entry (R174, R186). -/
def State.entryImage (s : State) (t : TableId) (i : Nat) : List Byte :=
  match t with
  | .station => (s.station i).image
  | .profile => (s.profile i).image
  | .zone => (s.zone i).image
  | .probe => (s.probeCal i).image
  | .fireInput => enc1 (s.inputKind i).code
  | .actuator => enc1 (s.actuator i).code
  | .hatch => (s.hatch i).image
  | .cls => (s.classEntry i).image

/-- The bytes of all eight tables in the order of R176. -/
def State.tableBytes (s : State) : List Byte :=
  TableId.all.flatMap (fun t => (List.range t.size).flatMap (fun i => s.entryImage t i))

/-- The two running values of the activation check after one more byte (R176). -/
def checkStep (ab : Nat × Nat) (x : Byte) : Nat × Nat :=
  let a := (ab.1 + x.toNat) % 255
  (a, (ab.2 + a) % 255)

/-- The activation check of a byte sequence (R176). -/
def activationSum (bytes : List Byte) : Nat :=
  let ab := bytes.foldl checkStep (0, 0)
  ab.2 * 256 + ab.1

/-! ### Reading a REQUEST (R168, 11.4) -/

/-- The 8-byte identifiers of a list field. -/
def identsOf (p : List Byte) : Nat → Nat → List Ident
  | _, 0 => []
  | i, n + 1 => field p i 8 :: identsOf p (i + 8) n

/-- The parameters of a recognised kind as a command, where they have the length of the kind's layout. -/
def requestOf (kind : Nat) (tag : Byte) (p : List Byte) : Option Instr :=
  let len (n : Nat) (c : Instr) : Option Instr := if p.length = n then some c else none
  if kind = Req.ident then len 0 (.ident tag)
  else if kind = Req.read then len 9 (.read tag (nat1 p 0) (field p 1 8))
  else if kind = Req.tableOpen then len 2 (.tableOpen tag (nat1 p 0) (nat1 p 1))
  else if kind = Req.tableWrite then (if p = [] then none else some (.tableWrite tag (nat1 p 0) (p.drop 1)))
  else if kind = Req.tableRead then len 1 (.tableRead tag (nat1 p 0))
  else if kind = Req.activate then len 2 (.activate tag (nat2 p 0))
  else if kind = Req.deactivate then len 0 (.deactivate tag)
  else if kind = Req.restart then len 0 (.restart tag)
  else if kind = Req.zoneProfile then len 2 (.zoneProfile tag (nat1 p 0) (nat1 p 1))
  else if kind = Req.zoneClearExposure then len 1 (.zoneClearExposure tag (nat1 p 0))
  else if kind = Req.zoneFireReset then len 1 (.zoneFireReset tag (nat1 p 0))
  else if kind = Req.zoneRelease then len 1 (.zoneRelease tag (nat1 p 0))
  else if kind = Req.zoneSilence then len 1 (.zoneSilence tag (nat1 p 0))
  else if kind = Req.mediaEnter then len 11 (.mediaEnter tag (field p 0 8) (nat1 p 8) (nat1 p 9) (nat1 p 10))
  else if kind = Req.mediaDelete then len 8 (.mediaDelete tag (field p 0 8))
  else if kind = Req.mediaMove then len 9 (.mediaMove tag (field p 0 8) (nat1 p 8))
  else if kind = Req.mediaHoldSet then len 9 (.mediaHoldSet tag (field p 0 8) (nat1 p 8))
  else if kind = Req.mediaHoldClear then len 9 (.mediaHoldClear tag (field p 0 8) (nat1 p 8))
  else if kind = Req.mediaQuery then len 8 (.mediaQuery tag (field p 0 8))
  else if kind = Req.consign then
    (if p.length < 13 then none
     else len (13 + 8 * nat1 p 12)
      (.consign tag (nat2 p 0) (nat1 p 2) (nat1 p 3) (field p 4 8) (identsOf p 13 (nat1 p 12))))
  else if kind = Req.consignCancel then len 2 (.consignCancel tag (nat2 p 0))
  else if kind = Req.clearAlerts then
    (if p = [] then none else len (1 + nat1 p 0) (.clearAlerts tag ((p.drop 1).map BitVec.toNat)))
  else if kind = Req.setMask then
    (if p.length < 2 then none
     else len (2 + nat1 p 1) (.setMask tag (nat1 p 0) ((p.drop 2).map BitVec.toNat)))
  else if kind = Req.resume then len 0 (.resume tag)
  else if kind = Req.storeBurn then len 3 (.storeBurn tag (nat1 p 0) (nat2 p 1))
  else if kind = Req.setLive then len 3 (.setLive tag (nat1 p 0) (nat2 p 1))
  else none

/-- The command a REQUEST payload asks for: one that cannot be read is the MALFORMED one (R168). -/
def readRequest (payload : List Byte) : Instr :=
  if payload.length < 3 ∨ nat1 payload 2 ≠ payload.length - 3 then .malformedRequest payload
  else (requestOf (nat1 payload 0) (byteAt payload 1) (payload.drop 3)).getD (.malformedRequest payload)

end Sys2Proof.Machine
end

