-- ==== Sys2Proof/Machine/Flags.lean ====
section
/-!
DEFINITION. The site queue (R5 to R7), the alert table with its latches, masks, held mark and ALERT output (R158 to
R163), and the REPLY (R168, R169).
-/
namespace Sys2Proof.Machine

namespace State

/-! ### The site queue (R5) -/

/-- The oldest queued frame is taken by an idle transmitter (R5). -/
def siteStart (s : State) : State :=
  match s.slp.tx, s.slp.queue with
  | none, f :: rest => { s with slp := { s.slp with tx := some f, queue := rest } }
  | _, _ => s

/-- A frame joins the site queue, which has room for it. -/
def siteEnqueue (s : State) (f : SiteItem) : State :=
  siteStart { s with slp := { s.slp with queue := s.slp.queue ++ [f] } }

/-- The site queue already holds 48 frames (R6). -/
def siteFull (s : State) : Bool := decide (Config.siteCapacity ≤ s.slp.queue.length)

/-- The offer of an ALERT notice reporting CONGESTION: a drop of it raises nothing (R6). -/
def offerQuiet (s : State) (f : SiteItem) : State := if s.siteFull then s else s.siteEnqueue f

/-- A NOTICE frame with this payload, addressed with the live values (R7). -/
def noticeItem (s : State) (payload : List Byte) : SiteItem :=
  ⟨⟨s.mga.live.siteAddress, s.mga.live.ownAddress, Kind.notice, payload⟩, .notice⟩

/-! ### The alert table and the ALERT output -/

/-- A kind whose output class is held, which is unmasked and whose condition is present (R163). -/
def holdsLine (s : State) (k : AlertKind) : Bool :=
  k.isHeld && !(s.alertRec k.code).masked && !(s.alertRec k.code).present.isEmpty

/-- The held mark recomputed (R163). -/
def recomputeHeld (s : State) : State := { s with alb := { s.alb with held := AlertKind.all.any s.holdsLine } }

/-- The ALERT line is low (R163). -/
def alertLow (s : State) : Bool := s.alb.held || s.tmb.pulse.running

/-- Steps 1 to 3 of a latch (R161). -/
def latchRecord (s : State) (k : AlertKind) (src : Nat) : State :=
  let r := s.alertRec k.code
  s.setAlertRec k.code
    { r with latched := true, count := if r.count < 255 then r.count + 1 else r.count, lastSource := some src }

/-- The payload of the ALERT notice of a latch, from the record after it (R162). -/
def alertNotice (s : State) (k : AlertKind) (src : Nat) : List Byte :=
  let r := s.alertRec k.code
  enc1 0 ++ enc1 k.code ++ enc1 (if k.isCondition then 0 else 1) ++ enc1 k.sourceType ++ enc2 src
    ++ enc1 r.count ++ enc1 (if k.isCondition then r.present.length else 0) ++ enc4 s.now

/-- Step 5 of a latch: the pulse (R163). The Alert Block starts or triggers the pulse timer (R43). -/
def pulseLatch (s : State) : State :=
  if s.alb.held then s
  else if s.tmb.pulse.running then s.setPulse s.tmb.pulse.trigger
  else s.setPulse (s.tmb.pulse.start Config.pulseLoad false true)

/-- The raise of CONGESTION, whose own notice raises nothing when it is dropped (R6, R161). -/
def raiseCongestion (s : State) (l : Link) : State :=
  let s1 := s.latchRecord .congestion l.source
  if (s1.alertRec AlertKind.congestion.code).masked then s1
  else (s1.offerQuiet (s1.noticeItem (s1.alertNotice .congestion l.source))).pulseLatch

/-- A frame offered to the site queue: accepted, or dropped with CONGESTION of source SITE (R6). -/
def offerSite (s : State) (f : SiteItem) : State :=
  if s.siteFull then s.raiseCongestion .site else s.siteEnqueue f

/-- A notice offered to the site queue (R166). -/
def offerNotice (s : State) (payload : List Byte) : State := s.offerSite (s.noticeItem payload)

/-- A latch (R161). -/
def latch (s : State) (k : AlertKind) (src : Nat) : State :=
  let s1 := s.latchRecord k src
  if (s1.alertRec k.code).masked then s1
  else (s1.offerNotice (s1.alertNotice k src)).pulseLatch

/-- The present sources of a kind set. -/
def setPresent (s : State) (k : AlertKind) (present : List Nat) : State :=
  s.setAlertRec k.code { s.alertRec k.code with present := present }

/-- The held mark follows a rise or lower of a held-class kind (R163). -/
def heldAfter (s : State) (k : AlertKind) : State := if k.isHeld then s.recomputeHeld else s

/-- A raise of a condition kind for a source (R160), taken whole before the next raise of its event (log 45). -/
def raiseCondition (s : State) (k : AlertKind) (src : Nat) : State :=
  let p := (s.alertRec k.code).present
  if src ∈ p then s
  else ((s.setPresent k (insertSorted p src)).heldAfter k).latch k src

/-- A lower of a condition kind for a source (R160). -/
def lower (s : State) (k : AlertKind) (src : Nat) : State :=
  let p := (s.alertRec k.code).present
  if src ∈ p then (s.setPresent k (eraseNat p src)).heldAfter k else s

/-- A lower of a condition kind for every source, one lower per source (R160). -/
def lowerAll (s : State) (k : AlertKind) : State :=
  (s.alertRec k.code).present.foldl (fun s src => s.lower k src) s

/-- A raise of an event kind; a raise of CONGESTION follows R6. -/
def raiseEvent (s : State) (k : AlertKind) (src : Nat) : State := s.latch k src

/-- FRAME_ERRORS with the source of a link (R3, R4, R11, R29). -/
def frameError (s : State) (l : Link) : State := s.raiseEvent .frameErrors l.source

/-! ### REPLY (R168, R169) -/

/-- The result bytes one REPLY can carry (log 11). -/
def fitResults (r : List Byte) : List Byte :=
  if r.length ≤ Config.replyResultBytes then r
  else (Config.overlongResults r).take Config.replyResultBytes

/-- The payload of a REPLY (11.4). -/
def replyPayload (kind : Byte) (tag : Byte) (st : Status) (why : Nat) (results : List Byte) : List Byte :=
  [kind, tag] ++ enc1 st.code ++ enc1 why ++ fitResults results

def replyItem (s : State) (t : SiteTag) (payload : List Byte) : SiteItem :=
  ⟨⟨s.mga.live.siteAddress, s.mga.live.ownAddress, Kind.reply, payload⟩, t⟩

/-- A REPLY whose reason byte is 00h, offered to the site queue. -/
def reply (s : State) (kind : Nat) (tag : Byte) (st : Status) (results : List Byte) : State :=
  s.offerSite (s.replyItem .reply (replyPayload (byteOf kind) tag st 0 results))

/-- A REPLY of status REFUSED with its reason. -/
def replyRefused (s : State) (kind : Nat) (tag : Byte) (why : Reason) (results : List Byte) : State :=
  s.offerSite (s.replyItem .reply (replyPayload (byteOf kind) tag .refused why.code results))

end State

end Sys2Proof.Machine
end

