-- ==== Sys2Proof/Machine/Gate.lean ====
section
/-!
DEFINITION. The command gate (R30 to R33), the field queues (R13, R14) and the field segment arbiter with the tests
made when a frame is taken for sending (R8, R15, R16, R31, R93, R138, R153).
-/
namespace Sys2Proof.Machine

namespace State

/-! ### The command gate -/

/-- The reason the gate blocks a site frame with, none where it passes: the rows of R30 in their order. -/
def gateTest (s : State) (f : Frame) : Option BlockReason :=
  if f.kind = Kind.release then some .releaseReserved
  else if f.dst = broadcast ∧ (f.kind = Kind.drive ∨ f.kind = Kind.sound ∨ f.kind = Kind.hatch) then some .broadcast
  else
    match s.stationByAddr f.dst with
    | none => none
    | some e =>
      let zoneFire := s.fireStateOf e.zone
      let fn := s.actuator e.index
      if f.kind = Kind.drive ∧ e.kind = .actuator ∧ (fn = .humidifier ∨ fn = .dehumidifier) then
        if zoneFire.latched then some .fireState
        else if s.mga.partState = .autonomous then some .autonomous
        else none
      else if f.kind = Kind.drive ∧ e.kind = .actuator ∧ fn = .damper then
        if zoneFire = .releaseCountdown ∨ zoneFire = .released then some .fireState else none
      else if f.kind = Kind.sound ∧ e.zone ≠ none then
        if zoneFire ≠ .quiet then some .fireState else none
      else if f.kind = Kind.hatch then
        match s.hatchByUnit f.dst with
        | some (h, he) =>
          if (s.fireState he.inner).latched then some .fireState
          else if (s.activeOn h).isSome then some .handoverActive
          else none
        | none => none
      else none

/-- A blocked frame is reported (R32); `stage` is ENTRY 0 or SEND 1. -/
def offerBlocked (s : State) (f : Frame) (why : BlockReason) (stage : Nat) : State :=
  s.offerNotice (enc1 5 ++ enc1 f.kind ++ enc1 f.dst ++ enc1 why.code ++ enc1 stage)

/-! ### Tests when a frame is taken from the ordinary queue for sending -/

/-- A HATCH UNLOCK: the command byte alone is read (R33). -/
def isUnlock (f : Frame) : Bool := decide (f.kind = Kind.hatch) && decide (f.payload.head? = some (byteOf HatchCommand.unlock))

/-- The manual flag of the hatch a site HATCH UNLOCK goes to (R33). -/
def setManual (s : State) (f : Frame) : State :=
  if isUnlock f then
    match s.hatchByUnit f.dst with
    | some (h, _) => s.setHatchRuntime h { s.hatchRuntime h with manual := true, moved := false }
    | none => s
  else s

/-- A site frame in an ACTIVE state is gated again (R31); one that passes may set the manual flag (R33). -/
def sendTestSite (s : State) (f : Frame) : Bool × State :=
  if s.active then
    match s.gateTest f with
    | some why => (false, s.offerBlocked f why 1)
    | none => (true, s.setManual f)
  else (true, s)

/-- A CHIME is sent only while the zone of its destination is QUIET (R93). -/
def sendTestChime (s : State) (f : Frame) : Bool :=
  match s.stationByAddr f.dst with
  | some e => decide (s.fireStateOf e.zone = .quiet)
  | none => true

/-- A HATCH UNLOCK of origin HOC is sent only if the hatch's unlock reference names a consignment in UNLOCKING; the
reference is cleared either way (R138). -/
def sendTestUnlock (s : State) (f : Frame) : Bool × State :=
  if isUnlock f then
    match s.hatchByUnit f.dst with
    | some (h, _) =>
      let r := s.hatchRuntime h
      let ok := match r.unlockRef with
        | some n => decide ((s.consignment n).map Consignment.state = some .unlocking)
        | none => false
      (ok, s.setHatchRuntime h { r with unlockRef := none })
    | none => (false, s)
  else (true, s)

/-- A DRIVE of origin CLS is dropped in ALARM or later, and when its command is no longer the zone's command for the
destination's function (R153). -/
def sendTestDrive (s : State) (f : Frame) : Bool :=
  match s.stationByAddr f.dst with
  | none => false
  | some e =>
    match e.zone with
    | none => false
    | some z =>
      let on := decide (f.payload.head? = some (byteOf Drive.on))
      let c := s.climate z
      !(s.fireState z).latched
        && (match s.actuator e.index with
            | .humidifier => decide (e.kind = .actuator) && (on == c.humidifier)
            | .dehumidifier => decide (e.kind = .actuator) && (on == c.dehumidifier)
            | _ => false)

/-- The test of the frame's origin: whether it is sent, and the state after the test. -/
def sendTest (s : State) (it : OrdItem) : Bool × State :=
  match it.origin with
  | .site => s.sendTestSite it.frame
  | .frs => (s.sendTestChime it.frame, s)
  | .hoc => s.sendTestUnlock it.frame
  | .cls => (if it.frame.kind = Kind.drive then s.sendTestDrive it.frame else true, s)
  | .csu => (true, s)

/-! ### The arbiter -/

def setSegment (s : State) (g : Segment) : State := { s with fsp := { s.fsp with segment := g } }

/-- The entry the next poll goes to: the first after the poll position, wrapping (R8). -/
def nextPoll (s : State) : Option (Nat × StationEntry) :=
  match s.fsp.pollPos with
  | none => s.stationList.head?
  | some p =>
    match s.stationList.find? (fun q => p < q.1) with
    | some q => some q
    | none => s.stationList.head?

/-- Cases 3 and 4 of R15: a poll, or IDLE. -/
def choosePoll (s : State) : State :=
  match s.nextPoll with
  | some (i, e) =>
    { s with fsp := { s.fsp with
        segment := .sending (.poll i ⟨e.addr, s.mga.live.ownAddress, Kind.poll, []⟩)
        pollPos := some i
        lastNonUrgent := .poll } }
  | none => s.setSegment .idle

/-- Case 2 of R15: the oldest ordinary frame that passes its test is sent; the others are dropped. -/
def takeOrdinary : List OrdItem → State → State
  | [], s => choosePoll { s with fsp := { s.fsp with ordinary := [] } }
  | it :: rest, s =>
    let s1 : State := { s with fsp := { s.fsp with ordinary := rest } }
    match s1.sendTest it with
    | (true, s2) => { s2 with fsp := { s2.fsp with segment := .sending (.ordinary it), lastNonUrgent := .ordinary } }
    | (false, s2) => takeOrdinary rest s2

/-- The arbiter's choice (R15). -/
def arbitrate (s : State) : State :=
  match s.fsp.urgent with
  | f :: rest => { s with fsp := { s.fsp with urgent := rest, segment := .sending (.urgent f) } }
  | [] =>
    if s.fsp.ordinary ≠ [] ∧ (s.fsp.lastNonUrgent = .poll ∨ s.stationList = []) then takeOrdinary s.fsp.ordinary s
    else s.choosePoll

/-- A frame has joined a queue: the arbiter chooses if the segment is IDLE (R16). -/
def arbitrateIfIdle (s : State) : State := if s.fsp.segment = .idle then s.arbitrate else s

/-! ### Joining the field queues -/

/-- The urgent queue with a frame: it replaces the waiting frame for its destination, or joins at the tail (R13). -/
def urgentPut : List Frame → Frame → List Frame
  | [], f => [f]
  | g :: rest, f => if g.dst = f.dst then f :: rest else g :: urgentPut rest f

/-- An urgent frame to a station of the station table (R7, R13). -/
def queueUrgent (s : State) (dst kind : Nat) (payload : List Byte) : State :=
  arbitrateIfIdle { s with fsp := { s.fsp with
    urgent := urgentPut s.fsp.urgent ⟨dst, s.mga.live.ownAddress, kind, payload⟩ } }

/-- A frame offered to the ordinary queue (R14). -/
def offerOrdinary (s : State) (it : OrdItem) : State :=
  if Config.ordinaryCapacity ≤ s.fsp.ordinary.length then s.raiseCongestion .field
  else arbitrateIfIdle { s with fsp := { s.fsp with ordinary := s.fsp.ordinary ++ [it] } }

/-- An ordinary frame originated by a job block (R7, R14). -/
def originate (s : State) (o : Origin) (dst kind : Nat) (payload : List Byte) : State :=
  s.offerOrdinary ⟨⟨dst, s.mga.live.ownAddress, kind, payload⟩, o⟩

/-- One urgent frame to each of several stations, in order. -/
def queueUrgentAll (s : State) (dsts : List Nat) (kind : Nat) (payload : List Byte) : State :=
  dsts.foldl (fun s d => s.queueUrgent d kind payload) s

/-- One ordinary frame to each of several stations, in order. -/
def originateAll (s : State) (o : Origin) (dsts : List Nat) (kind : Nat) (payload : List Byte) : State :=
  dsts.foldl (fun s d => s.originate o d kind payload) s

/-- Whether a frame of an origin for a destination is still in the ordinary queue (R14). -/
def waitsInOrdinary (s : State) (o : Origin) (dst : Nat) : Bool :=
  s.fsp.ordinary.any (fun it => decide (it.origin = o) && decide (it.frame.dst = dst))

/-- An ANSWER: step or intent, reference, outcome (11.3). -/
def answer (s : State) (o : Origin) (dst : Nat) (step : Byte) (reference : List Byte) (out : Outcome) : State :=
  s.originate o dst Kind.answer ([step] ++ reference ++ enc1 out.code)

end State

end Sys2Proof.Machine
end

