-- ==== Sys2Proof/Machine/Exchange.lean ====
section
/-!
DEFINITION. What every REQUEST shares before its own rule: the supervision trigger (R147), the discard while a restart is
pending and the BUSY answer while the activation check is computed (R169); and the commands that name a field station.
-/
namespace Sys2Proof.Machine

namespace State

/-- A REQUEST handed to the MGA in ACTIVE_SUPERVISED triggers the supervision timer before it is carried out; a live
SUPERVISION_TIMEOUT of 0 leaves the timer stopped (R147; log 27), and an expiry already handed is still taken (log 44). -/
def requestTaken (s : State) : State :=
  if s.mga.partState = .supervised ∧ s.mga.live.supervisionTimeout ≠ 0 then
    s.setSupervision s.tmb.supervision.trigger
  else s

/-- The MGA takes the request `c` and carries it out by `act`, unless R169 discards it or answers BUSY. -/
def serve (s : State) (c : Instr) (kind : Nat) (tag : Byte) (act : State → State) : State :=
  let s1 := (s.takeHanded c).requestTaken
  if s1.mga.restartPending then s1
  else if s1.mga.check.isSome then s1.reply kind tag .busy []
  else act s1

/-- A job block takes the frame `c` of station entry `e` in the ACTIVE states, where the entry is of the kind R24 and
R25 name for it (`fits`); job logic does not run in CONFIG (R22; log 26). -/
def take (s : State) (c : Instr) (e : Nat) (fits : StationEntry → Bool) (act : State → State) : State :=
  let s1 := s.takeHanded c
  let entry := s1.station e
  if s1.active && decide (entry.addr ≠ 0) && fits entry then act s1 else s1

/-- An internal event `c` happens only where it has been handed and not yet taken (log 2). -/
def takeEvent (s : State) (c : Instr) (act : State → State) : State :=
  if s.isHanded c then act (s.takeHanded c) else s

end State

/-- COURIER_TERMINAL, or READER of role WITNESS (R24). -/
def StationEntry.isHatchStation (e : StationEntry) : Bool :=
  decide (e.kind = .courierTerminal) || (decide (e.kind = .reader) && decide (e.role = .witness))
/-- READER or COURIER_TERMINAL (R24). -/
def StationEntry.scans (e : StationEntry) : Bool := decide (e.kind = .reader) || decide (e.kind = .courierTerminal)

/-- The command that takes a SCAN (R25). -/
def scanCommand (e : StationEntry) (index : Nat) (p : List Byte) : Instr :=
  match e.kind, e.role, scanIntent p with
  | .reader, .door, some .take => .takeScan index p
  | .reader, .door, some .ret => .returnScan index p
  | .reader, .door, none => .takeScan index p
  | .reader, .witness, some .receive => .scanReceive index p
  | .courierTerminal, _, some .handover => .scanHandover index p
  | _, _, _ => .wrongStationScan index p

/-- A SCAN of an entry is dispatched as the command `c` (R24, R25). -/
def StationEntry.scansAs (index : Nat) (p : List Byte) (c : Instr) (e : StationEntry) : Bool :=
  e.scans && decide (scanCommand e index p = c)

end Sys2Proof.Machine
end

