-- ==== Sys2Proof/Machine/Climate.lean ====
section
/-!
DEFINITION. The Climate Supervisor (R46 to R69) with its fallback drive and retry (R150 to R156): probes, zone
readings, evaluations, exposure, ZONE PROFILE and ZONE CLEAR EXPOSURE.
-/
namespace Sys2Proof.Machine

/-- The zones in order (R77, R150). -/
def zoneNumbers : List Nat := List.range Config.zoneCount

/-! ### The ZONE notice (R63, R96, 11.5) -/

/-- The fields of a ZONE notice; those the change type's rule does not list are sent as zero (log 30). -/
structure ZoneNoticeFields where
  zone : Nat
  changeType : Nat
  before : Nat
  after : Nat
  climate : ClimateState
  fire : FireState
  cause : Option Cause
  coupled : List Nat
  silenced : Bool
  unmonitored : Bool
  reading : Option Reading
  validCount : Nat
  exposure : Nat
  exposed : Bool

def ZoneNoticeFields.payload (n : ZoneNoticeFields) : List Byte :=
  enc1 1 ++ enc1 n.zone ++ enc1 n.changeType ++ enc1 n.before ++ enc1 n.after ++ enc1 n.climate.code ++ enc1 n.fire.code
    ++ encPresence 1 (n.cause.map (fun c => enc1 c.code)) ++ encZoneSet n.coupled ++ encBool n.silenced
    ++ encBool n.unmonitored
    ++ encPresence 6 (n.reading.map (fun r => enc2 r.rh ++ encSigned2 r.t ++ encSigned2 r.td))
    ++ enc1 n.validCount ++ enc2 n.exposure ++ encBool n.exposed

/-! ### Zone reading and dew point (R55, R56) -/

/-- The dew point of a reading (R56). -/
def dewPoint (rh : Nat) (t : Int) : Int := t - (((1000 - rh) / 5 : Nat) : Int)

/-- The reading of the calibrated values of VALID probes: the largest RH, the floored mean T, and the dew point. -/
def readingOf (vals : List (Nat × Int)) : Option Reading :=
  if vals = [] then none
  else
    let rh := vals.foldl (fun m v => max m v.1) 0
    let t := Int.fdiv (vals.foldl (fun a v => a + v.2) 0) vals.length
    some ⟨rh, t, dewPoint rh t⟩

/-! ### Bands (R59, R61) -/

/-- The band of a reading with every limit of the profile moved inside by `h` (RH) and `th` (T). -/
def bandInside (p : Profile) (h th : Nat) (r : Reading) : ClimateState :=
  let rh : Int := r.rh
  if (p.critHigh : Int) - h ≤ rh ∨ rh ≤ p.critLow + h then .critical
  else if (p.high : Int) - h < rh ∨ rh < p.low + h ∨ p.tHigh - th < r.t ∨ r.t < p.tLow + th then .excursion
  else if (p.high : Int) - p.margin - h < rh ∨ rh < p.low + p.margin + h then .warning
  else .normal

/-- The raw band (R59). -/
def rawBand (p : Profile) (r : Reading) : ClimateState := bandInside p 0 0 r

/-- The second band (R61). -/
def heldBand (p : Profile) (r : Reading) : ClimateState := bandInside p p.hyst p.tHyst r

/-- An evaluation of a climate record against the values of the zone's VALID probes (R58 to R61). -/
def evaluateRecord (p : Profile) (c : ClimateRec) (vals : List (Nat × Int)) : ClimateRec :=
  match readingOf vals with
  | none =>
    if c.state = .noData then c
    else { c with state := .noData, reading := none, validCount := 0, candidate := 0 }
  | some r =>
    let c1 := { c with reading := some r, validCount := vals.length }
    let b := rawBand p r
    if c.state = .noData then { c1 with state := b, candidate := 0 }
    else if c.state.severity < b.severity then
      if c.candidate + 1 = p.persistence then { c1 with state := b, candidate := 0 }
      else { c1 with candidate := c.candidate + 1 }
    else if b.severity < c.state.severity then
      let bh := heldBand p r
      if bh.severity < c.state.severity then { c1 with state := bh, candidate := 0 }
      else { c1 with candidate := 0 }
    else { c1 with candidate := 0 }

/-! ### Fallback commands (R151) -/

/-- The humidifier and dehumidifier commands of a climate record under a profile. -/
def fallbackCommands (p : Profile) (c : ClimateRec) : Bool × Bool :=
  match c.state, c.reading with
  | .noData, _ => (false, false)
  | _, none => (false, false)
  | _, some r =>
    let rh : Int := r.rh
    if (p.high : Int) < rh then (false, true)
    else if rh < p.low then (true, false)
    else if (p.low : Int) + p.hyst ≤ rh ∧ rh ≤ p.high - p.hyst then (false, false)
    else (c.humidifier, c.dehumidifier)

/-- The alert kind of a climate state (R64). -/
def ClimateState.alertKind : ClimateState → Option AlertKind
  | .noData => some .zoneNoData
  | .normal => none
  | .warning => some .climateWarning
  | .excursion => some .climateExcursion
  | .critical => some .climateCritical

/-- The humidity excess of a zone RH against its profile (R65). -/
def humidityExcess (p : Profile) (rh : Nat) : Nat :=
  if p.high < rh then rh - p.high else if rh < p.low then p.low - rh else 0

/-- A fire state below ALARM: QUIET or PRE_ALARM (R150, R151, R154). -/
def belowAlarm (f : FireState) : Bool := !f.latched

/-! ### The visits of a retry expiry (R154) -/

/-- A climate actuator visited at a retry expiry: its address, its zone, its zone's command for its function, and whether
a frame of origin CLS waits for it, so that it is skipped. -/
structure FallbackVisit where
  addr : Nat
  zone : Nat
  on : Bool
  waits : Bool
  deriving DecidableEq, Repr

/-- The visit queues a frame with ON. -/
def FallbackVisit.sendsOn (v : FallbackVisit) : Bool := !v.waits && v.on

/-- The visit queues a frame with OFF to the zone. -/
def FallbackVisit.sendsOffTo (z : Nat) (v : FallbackVisit) : Bool := !v.waits && !v.on && decide (v.zone = z)

/-- A visit is put before visits already in order; one that queues ON stands just after the last frame with OFF of its
zone (log 16). -/
def placeVisit (v : FallbackVisit) : List FallbackVisit → List FallbackVisit
  | [] => [v]
  | w :: rest =>
    if v.sendsOn && (w :: rest).any (FallbackVisit.sendsOffTo v.zone) then w :: placeVisit v rest else v :: w :: rest

/-- Visits in station table index order, but that within each zone frames with OFF precede frames with ON (R154). -/
def offBeforeOn : List FallbackVisit → List FallbackVisit
  | [] => []
  | v :: rest => placeVisit v (offBeforeOn rest)

namespace State

/-! ### Evaluation -/

/-- The PROBE station entries of a zone. -/
def probesOf (s : State) (z : Nat) : List StationEntry :=
  (s.stationList.filter (fun p => p.2.kind = .probe && p.2.zone = some z)).map Prod.snd

/-- The calibrated values of a zone's VALID probes (R55). -/
def validValues (s : State) (z : Nat) : List (Nat × Int) :=
  (s.probesOf z).filterMap (fun e => match s.probeState e.index with
    | .valid rh t => some (rh, t)
    | _ => none)

/-- The current profile of a zone. -/
def zoneProfile (s : State) (z : Nat) : Profile := s.profile (s.zone z).profile

/-- The ZONE notice of a climate state change (R63), which also shows the silenced flag (R92; log 30). -/
def climateNotice (s : State) (z : Nat) (before : ClimateState) : List Byte :=
  let c := s.climate z
  ZoneNoticeFields.payload
    { zone := z, changeType := 0, before := before.code, after := c.state.code, climate := c.state
      fire := s.fireState z, cause := none, coupled := [], silenced := (s.fire z).silenced, unmonitored := false
      reading := c.reading, validCount := c.validCount, exposure := c.exposure, exposed := c.exposed }

/-- ZONE_NO_DATA is raised only for a zone with a PROBE station entry (R64). -/
def raiseClimate (s : State) (z : Nat) (st : ClimateState) : State :=
  match st with
  | .noData => if s.probesOf z = [] then s else s.raiseCondition .zoneNoData z
  | st => match st.alertKind with
    | some k => s.raiseCondition k z
    | none => s

def lowerClimate (s : State) (z : Nat) (st : ClimateState) : State :=
  match st.alertKind with
  | some k => s.lower k z
  | none => s

/-- DRIVE ON or OFF, ordinary, of origin CLS, to each of several actuators (R152). -/
def driveAll (s : State) (dsts : List Nat) (on : Bool) : State :=
  s.originateAll .cls dsts Kind.drive (enc1 (if on then Drive.on else Drive.off))

/-- A function whose command changed to the value `on` (R152). -/
def changedTo (c c' : ClimateRec) (on : Bool) : Function → Bool
  | .humidifier => decide (c.humidifier ≠ c'.humidifier) && (c'.humidifier == on)
  | .dehumidifier => decide (c.dehumidifier ≠ c'.dehumidifier) && (c'.dehumidifier == on)
  | _ => false

/-- A computation of a zone's fallback commands and the frames of each change, OFF before ON (R151, R152). It is made
only for a zone below ALARM. -/
def computeFallback (s : State) (z : Nat) : State :=
  if belowAlarm (s.fireState z) then
    let c := s.climate z
    let cmds := fallbackCommands (s.zoneProfile z) c
    let c' : ClimateRec := { c with humidifier := cmds.1, dehumidifier := cmds.2 }
    let s1 := s.setClimate z c'
    let off := s.actuatorsOf z (changedTo c c' false)
    let on := s.actuatorsOf z (changedTo c c' true)
    (s1.driveAll off false).driveAll on true
  else s

/-- Steps 1 and 2 of R62, where the climate state changed. -/
def reportClimate (s : State) (z : Nat) (before after : ClimateState) : State :=
  if before = after then s
  else (((s.offerNotice (s.climateNotice z before)).lowerClimate z before).raiseClimate z after)

/-- An evaluation of a zone (R57 to R62). -/
def evaluateClimate (s : State) (z : Nat) : State :=
  let c := s.climate z
  let c' := evaluateRecord (s.zoneProfile z) c (s.validValues z)
  let s1 := (s.setClimate z c').reportClimate z c.state c'.state
  let s2 := s1.hand (.zoneReport z .evaluated)
  if s2.mga.partState = .autonomous then s2.computeFallback z else s2

/-- An evaluation of the zone field of a station entry. -/
def evaluateClimateOf (s : State) : Option Nat → State
  | some z => s.evaluateClimate z
  | none => s

/-! ### Probes (R48 to R50) -/

/-- A SAMPLE payload that is faulty (R48). -/
def sampleFaulty (p : List Byte) : Bool :=
  decide (p.length ≠ 5) || decide (nat1 p 4 ≠ 0) || decide (1000 < nat2 p 0)
    || decide (signed2 p 2 < -400) || decide (850 < signed2 p 2)

/-- The calibrated values of a good SAMPLE (R49). -/
def calibrate (cal : ProbeCal) (p : List Byte) : ProbeState :=
  .valid (clampInt 0 1000 ((nat2 p 0 : Int) + cal.rh)).toNat (clampT (signed2 p 2 + cal.t))

/-- A SAMPLE of a PROBE entry is taken (R48). -/
def takeSample (s : State) (e : StationEntry) (p : List Byte) : State :=
  let was := s.probeState e.index
  if sampleFaulty p then
    if was = .fault then s
    else ((s.setProbeState e.index .fault).raiseCondition .probeFault e.addr).evaluateClimateOf e.zone
  else
    let s1 := s.setProbeState e.index (calibrate (s.probeCal e.index) p)
    let s2 := if was = .fault then s1.lower .probeFault e.addr else s1
    s2.evaluateClimateOf e.zone

/-- SILENT is set on a PROBE station (R50). -/
def probeSilent (s : State) (e : StationEntry) : State :=
  let was := s.probeState e.index
  let s1 := s.setProbeState e.index .silent
  let s2 := if was = .fault then s1.lower .probeFault e.addr else s1
  s2.evaluateClimateOf e.zone

/-- SILENT is cleared on a PROBE station (R50). -/
def probeReturned (s : State) (e : StationEntry) : State := s.setProbeState e.index .noSample

/-! ### Exposure (R65 to R67) -/

/-- The test for EXPOSED (R66). -/
def testExposed (s : State) (z : Nat) : State :=
  let c := s.climate z
  let limit := (s.zone z).exposureLimit
  if limit ≠ 0 ∧ limit ≤ c.exposure ∧ c.exposed = false then
    (s.setClimate z { c with exposed := true }).raiseCondition .zoneExposed z
  else s

/-- A zone visited at a minute tick (R65). -/
def exposeZone (s : State) (z : Nat) : State :=
  let c := s.climate z
  match c.state, c.reading with
  | .excursion, some r | .critical, some r =>
    let sum := c.exposure + humidityExcess (s.zoneProfile z) r.rh
    (s.setClimate z { c with exposure := min sum 65535 }).testExposed z
  | _, _ => s

/-- The minute tick at the Climate Supervisor (R65; zone order, log 9). -/
def climateMinute (s : State) : State := if s.active then zoneNumbers.foldl exposeZone s else s

/-! ### Fallback drive and retry (R150, R154, R156) -/

/-- Both commands of a zone set to OFF (R69, R150). -/
def commandsOff (s : State) (z : Nat) : State :=
  s.setClimate z { s.climate z with humidifier := false, dehumidifier := false }

/-- The Climate Supervisor is told of the entry to ACTIVE_AUTONOMOUS (R150). -/
def beginFallback (s : State) : State :=
  let s1 := zoneNumbers.foldl commandsOff s
  let s2 := s1.setRetry (s1.tmb.retry.start s1.mga.live.retryInterval true false)
  zoneNumbers.foldl computeFallback s2

/-- The Climate Supervisor is told of the RESUME (R156 step 4). -/
def endFallback (s : State) : State := s.setRetry s.tmb.retry.stop

/-- The climate actuators driven in fallback, in station table index order, each with its zone's current command for
its function and whether a frame of origin CLS waits for it (R154). -/
def fallbackVisits (s : State) : List FallbackVisit :=
  s.stationList.filterMap (fun p =>
    match p.2.kind, p.2.zone with
    | .actuator, some z =>
      if belowAlarm (s.fireState z) then
        let visit (on : Bool) : FallbackVisit := ⟨p.2.addr, z, on, s.waitsInOrdinary .cls p.2.addr⟩
        match s.actuator p.2.index with
        | .humidifier => some (visit (s.climate z).humidifier)
        | .dehumidifier => some (visit (s.climate z).dehumidifier)
        | _ => none
      else none
    | _, _ => none)

/-- What a visit gives: RETRY_OVERRUN where a frame waits, and otherwise the frame (R154). -/
def visitActuator (s : State) (v : FallbackVisit) : State :=
  if v.waits then s.raiseEvent .retryOverrun v.addr
  else s.originate .cls v.addr Kind.drive (enc1 (if v.on then Drive.on else Drive.off))

/-- The visit of a retry expiry in ACTIVE_AUTONOMOUS, acknowledged where no actuator was skipped (R154). -/
def retryVisit (s : State) : State :=
  let s1 := (offBeforeOn s.fallbackVisits).foldl visitActuator s
  if s.fallbackVisits.all (fun v => !v.waits) then s1.setRetry s1.tmb.retry.acknowledge else s1

/-- An expiry of the retry timer, plain or marked as an overrun (R154, R155); outside ACTIVE_AUTONOMOUS it is
acknowledged without effect. -/
def retryExpired (s : State) : State :=
  if s.mga.partState = .autonomous then s.retryVisit else s.setRetry s.tmb.retry.acknowledge

/-! ### ACTIVATE and DEACTIVATE (R47, R54, R64, R66, R177, R178) -/

/-- Every probe is NO_SAMPLE, with PROBE_FAULT lowered; every climate record starts again but for its exposure and its
EXPOSED flag. -/
def restartClimate (s : State) : State :=
  let s1 := s.lowerAll .probeFault
  let s2 : State := { s1 with cls := { s1.cls with probeState := [] } }
  zoneNumbers.foldl (fun s z =>
    let c := s.climate z
    s.setClimate z { ClimateRec.fresh with exposure := c.exposure, exposed := c.exposed }) s2

/-- The Climate Supervisor at an accepted ACTIVATE: ZONE_NO_DATA is raised, then the exposure locks are retested, each in
zone order (log 40). -/
def activateClimate (s : State) : State :=
  let s1 := zoneNumbers.foldl (fun s z => s.raiseClimate z .noData) s.restartClimate
  zoneNumbers.foldl testExposed s1

/-- The Climate Supervisor at an accepted DEACTIVATE. -/
def deactivateClimate (s : State) : State :=
  ((((s.restartClimate).lowerAll .zoneNoData).lowerAll .climateWarning).lowerAll .climateExcursion).lowerAll
    .climateCritical

/-! ### Requests -/

/-- ZONE PROFILE (R68), RANGE before NOT_ACTIVE (log 33). -/
def zoneProfileRequest (s : State) (tag : Byte) (z profile : Nat) : State :=
  if 15 < z ∨ 3 < profile then s.reply Req.zoneProfile tag .range []
  else if s.active then
    let before := (s.climate z).state
    let s1 := s.setZone z { s.zone z with profile := profile }
    let s2 := s1.setClimate z { s1.climate z with candidate := 0 }
    let s3 := s2.evaluateClimate z
    s3.reply Req.zoneProfile tag .done (enc1 before.code ++ enc1 (s3.climate z).state.code)
  else s.replyRefused Req.zoneProfile tag .notActive []

/-- ZONE CLEAR EXPOSURE (R67). -/
def zoneClearExposureRequest (s : State) (tag : Byte) (z : Nat) : State :=
  if 15 < z then s.reply Req.zoneClearExposure tag .range []
  else
    let c := s.climate z
    let s1 := (s.setClimate z { c with exposure := 0, exposed := false }).lower .zoneExposed z
    s1.reply Req.zoneClearExposure tag .done (enc2 c.exposure ++ encBool c.exposed)

end State

/-- SAMPLE (R48). -/
def execSample (entry : Nat) (payload : List Byte) (s : State) : Host.Outcome State Fault Refusal :=
  .next (s.take (.sample entry payload) entry (fun e => decide (e.kind = .probe)) (fun s =>
    s.takeSample (s.station entry) payload))

def execZoneProfile (tag : Byte) (zone profile : Nat) (s : State) : Host.Outcome State Fault Refusal :=
  .next (s.serve (.zoneProfile tag zone profile) Req.zoneProfile tag (fun s => s.zoneProfileRequest tag zone profile))

def execZoneClearExposure (tag : Byte) (zone : Nat) (s : State) : Host.Outcome State Fault Refusal :=
  .next (s.serve (.zoneClearExposure tag zone) Req.zoneClearExposure tag
    (fun s => s.zoneClearExposureRequest tag zone))

/-- An expiry of the autonomous retry timer (R154, R155). -/
def execRetryTimerExpiry (overrun : Bool) (s : State) : Host.Outcome State Fault Refusal :=
  .next (s.takeEvent (.retryTimerExpiry overrun) State.retryExpired)

end Sys2Proof.Machine
end

