-- ==== Sys2Proof/Machine/Custody.lean ====
section
/-!
DEFINITION. The Custody Unit (R98 to R119): custody scans, the minute scan, AGENT sweeps, the item operations and the
MEDIA requests.
-/
namespace Sys2Proof.Machine

/-- The hold set is not empty (R101). -/
def MediaRec.held (r : MediaRec) : Bool := r.manual || r.agent

/-- A hold set as a byte: MANUAL in bit 0, AGENT in bit 1 (R187). -/
def MediaRec.holdByte (r : MediaRec) : Nat := (if r.manual then 1 else 0) + (if r.agent then 2 else 0)

/-- `m` minutes after a minute clock value, in the 32-bit range (R100). -/
def minutesAfter (t : Minute) (m : Nat) : Minute := t + BitVec.ofNat 32 m

/-- The media record of READ and MEDIA QUERY: every field of R100 in its full width (R184; log 14). -/
def MediaRec.image (r : MediaRec) : List Byte :=
  field r.id 0 8 ++ enc1 r.cls ++ enc1 r.home ++ enc1 r.custody.code ++ enc1 r.holdByte
    ++ (match r.custody with
        | .checkedOut since due reported => enc4 since ++ encPresence 4 (due.map enc4) ++ encBool reported
        | _ => zeros 4 ++ encPresence 4 none ++ zeros 1)
    ++ (match r.custody with | .acclimatizing m => enc4 m | _ => zeros 4)
    ++ (match r.custody with | .consigned n => enc2 n | .arriving n => enc2 n | _ => zeros 2)

/-! ### Custody scans (R102 to R106) -/

/-- The form test of R102. -/
def scanFormOk (p : List Byte) : Bool :=
  decide (p.length = 9) && (scanIntent p).isSome && (field p 1 8).all identChar

namespace State

/-- The TRANSACTION notice of a served scan (R106); `found` is the slot of the record that was found. -/
def transactionNotice (s : State) (e : StationEntry) (p : List Byte) (out : Outcome) (found : Option Nat) : List Byte :=
  let rec_ := found.bind s.mediaAt
  let granted := decide (out = .granted)
  enc1 2 ++ enc1 e.addr ++ encZone e.zone ++ [byteAt p 0] ++ field p 1 8 ++ enc1 out.code
    ++ (match found, rec_ with
        | some slot, some r => 1 :: (enc2 slot ++ enc1 r.custody.code)
        | _, _ => 0 :: zeros 3)
    ++ enc4 s.now
    ++ (match granted, rec_.map MediaRec.custody with
        | true, some (.checkedOut since due _) => enc4 since ++ encPresence 4 (due.map enc4)
        | _, _ => zeros 4 ++ encPresence 4 none)
    ++ (match granted, rec_.map MediaRec.custody with
        | true, some (.acclimatizing m) => encPresence 4 (some (enc4 m))
        | _, _ => encPresence 4 none)
    ++ zeros 1

/-- Steps 2 and 3 of R102: the ANSWER to the station, then the TRANSACTION notice. -/
def scanReport (s : State) (e : StationEntry) (p : List Byte) (out : Outcome) (found : Option Nat) : State :=
  (s.answer .csu e.addr (byteAt p 0) (field p 1 8) out).offerNotice (s.transactionNotice e p out found)

/-- The checks of R103 in order, with the slot of the record found. -/
def takeOutcome (s : State) (zone : Option Nat) (id : Ident) : Outcome × Option Nat :=
  if s.mga.partState = .autonomous then (.supervision, none)
  else match s.mediaById id with
    | none => (.unknownMedia, none)
    | some (slot, r) =>
      let f := s.fire r.home
      let c := s.climate r.home
      let out : Outcome :=
        if zone ≠ some r.home then .wrongZone
        else if r.custody ≠ .shelved then .state
        else if r.held then .hold
        else if f.state ≠ .quiet ∨ f.unmonitored = true then .fire
        else if c.exposed then .exposed
        else if climateBars c.state (s.zone r.home).takeLimit then .climate
        else .granted
      (out, some slot)

/-- The record of a granted TAKE (R103). -/
def checkedOutRecord (s : State) (r : MediaRec) : MediaRec :=
  let loan := (s.classEntry r.cls).loan
  { r with custody := .checkedOut s.now (if loan = 0 then none else some (minutesAfter s.now loan)) false }

/-- A TAKE of the form of R102 is served (R103). -/
def serveTake (s : State) (e : StationEntry) (p : List Byte) : State :=
  let (out, found) := s.takeOutcome e.zone (field p 1 8)
  let s1 := match out, found, found.bind s.mediaAt with
    | .granted, some slot, some r => s.setMedia slot (some (s.checkedOutRecord r))
    | _, _, _ => s
  s1.scanReport e p out found

/-- The checks of R104 in order. -/
def returnOutcome (s : State) (zone : Option Nat) (id : Ident) : Outcome × Option Nat :=
  match s.mediaById id with
  | none => (.unknownMedia, none)
  | some (slot, r) =>
    let out : Outcome :=
      if zone ≠ some r.home then .wrongZone
      else match r.custody with
        | .checkedOut _ _ _ => if (s.fireState r.home).latched then .fire else .granted
        | _ => .state
    (out, some slot)

/-- The record of a granted RETURN: ACCLIMATIZING when the due minute has passed, SHELVED otherwise (R104). -/
def returnedRecord (s : State) (r : MediaRec) : MediaRec :=
  match r.custody with
  | .checkedOut _ (some due) _ =>
    if due < s.now then
      { r with custody := .acclimatizing (minutesAfter s.now (s.classEntry r.cls).baseHold) }
    else { r with custody := .shelved }
  | _ => { r with custody := .shelved }

/-- A RETURN of the form of R102 is served (R104). -/
def serveReturn (s : State) (e : StationEntry) (p : List Byte) : State :=
  let (out, found) := s.returnOutcome e.zone (field p 1 8)
  let s1 := match out, found, found.bind s.mediaAt with
    | .granted, some slot, some r => s.setMedia slot (some (s.returnedRecord r))
    | _, _, _ => s
  s1.scanReport e p out found

/-- A scan that fails the form test (R102). -/
def serveMalformedScan (s : State) (e : StationEntry) (p : List Byte) : State := s.scanReport e p .malformed none

end State

/-- TAKE (R102, R103, R106). -/
def execTakeScan (entry : Nat) (payload : List Byte) (s : State) : Host.Outcome State Fault Refusal :=
  .next (s.take (.takeScan entry payload) entry (StationEntry.scansAs entry payload (.takeScan entry payload)) (fun s =>
    if scanFormOk payload then s.serveTake (s.station entry) payload
    else s.serveMalformedScan (s.station entry) payload))

/-- RETURN (R102, R104, R106). -/
def execReturnScan (entry : Nat) (payload : List Byte) (s : State) : Host.Outcome State Fault Refusal :=
  .next (s.take (.returnScan entry payload) entry (StationEntry.scansAs entry payload (.returnScan entry payload)) (fun s =>
    if scanFormOk payload then s.serveReturn (s.station entry) payload
    else s.serveMalformedScan (s.station entry) payload))

/-- A wrong-station scan (R102, R105, R106). -/
def execWrongStationScan (entry : Nat) (payload : List Byte) (s : State) : Host.Outcome State Fault Refusal :=
  .next (s.take (.wrongStationScan entry payload) entry
    (StationEntry.scansAs entry payload (.wrongStationScan entry payload)) (fun s =>
    if scanFormOk payload then s.scanReport (s.station entry) payload .wrongStation none
    else s.serveMalformedScan (s.station entry) payload))

/-! ### The minute scan (R107 to R111) -/

/-- The part number of a MEDIA notice (R111); a number above one byte is a free value (log 12). -/
def partByte (n : Nat) : Byte := if n < 256 then byteOf n else Config.overlongPart n

/-- A MEDIA notice (R111, R113, 11.5): `about` is the starting minute, or the zone in its last byte. -/
def mediaNotice (cause : Nat) (about : List Byte) (part : Nat) (final : Bool) (entries : List (Nat × Ident)) :
    List Byte :=
  enc1 4 ++ enc1 cause ++ about ++ [partByte part] ++ encBool final ++ enc1 entries.length
    ++ entries.flatMap (fun p => enc2 p.1 ++ field p.2 0 8)

namespace State

def setScan (s : State) (r : ScanRec) : State := { s with csu := { s.csu with scan := r } }

/-- A pass begins at slot 0 (R107, R111). -/
def beginPass (s : State) : State := s.setScan ⟨some 0, false, s.now, [], 0⟩

/-- The minute tick at the Custody Unit (R107). -/
def custodyMinute (s : State) : State :=
  if s.active then
    match s.csu.scan.position with
    | none => s.beginPass
    | some _ => s.setScan { s.csu.scan with further := true }
  else s

/-- A release is entered; 16 entries are offered in a notice (R111). -/
def gatherRelease (s : State) (slot : Nat) (id : Ident) : State :=
  let r := s.csu.scan
  let entries := r.entries ++ [(slot, id)]
  if entries.length < Config.mediaNoticeEntries then s.setScan { r with entries := entries }
  else (s.setScan { r with entries := [], offered := r.offered + 1 }).offerNotice
        (mediaNotice 0 (enc4 r.began) (r.offered + 1) false entries)

/-- The tests of a visit of an occupied slot (R108, R109). -/
def scanRecordVisit (s : State) (slot : Nat) (r : MediaRec) : State :=
  match r.custody with
  | .acclimatizing m =>
    if m ≤ s.now then
      match (s.climate r.home).state with
      | .normal | .warning => (s.setMedia slot (some { r with custody := .shelved })).gatherRelease slot r.id
      | _ => s
    else s
  | .checkedOut since (some due) false =>
    if due < s.now then
      (s.setMedia slot (some { r with custody := .checkedOut since (some due) true })).raiseEvent .mediaOverdue slot
    else s
  | _ => s

/-- The end of a pass: the final notice if the pass released anything, then a further pass or IDLE (R107, R111). -/
def endPass (s : State) : State :=
  let r := s.csu.scan
  let s1 :=
    if r.entries = [] ∧ r.offered = 0 then s
    else s.offerNotice (mediaNotice 0 (enc4 r.began) (r.offered + 1) true r.entries)
  if r.further then s1.beginPass else s1.setScan .idle

/-- One visit of the minute scan (R107); the position is the slot visited next (log 42). -/
def minuteScanVisit (s : State) : State :=
  match s.csu.scan.position with
  | none => s
  | some slot =>
    let s1 := match s.mediaAt slot with
      | some r => s.scanRecordVisit slot r
      | none => s
    if slot + 1 < Config.slotCount then s1.setScan { s1.csu.scan with position := some (slot + 1) }
    else s1.endPass

end State

/-- MINUTE_SCAN_VISIT (R107 to R111). -/
def execMinuteScanVisit (s : State) : Host.Outcome State Fault Refusal := .next s.minuteScanVisit

/-! ### AGENT sweeps (R112 to R114) -/

namespace State

def setSweep (s : State) (r : SweepRec) : State := { s with csu := { s.csu with sweep := r } }

/-- The Custody Unit is told that a zone has entered RELEASED (R112). -/
def sweepZone (s : State) (z : Nat) : State :=
  let r := s.csu.sweep
  match r.running with
  | none => s.setSweep { r with running := some (z, 0), entries := [], offered := 0 }
  | some _ => if z ∈ r.queue then s else s.setSweep { r with queue := r.queue ++ [z] }

/-- A mark is entered; 16 entries are offered in a notice (R113). -/
def gatherMark (s : State) (z slot : Nat) (id : Ident) : State :=
  let r := s.csu.sweep
  let entries := r.entries ++ [(slot, id)]
  if entries.length < Config.mediaNoticeEntries then s.setSweep { r with entries := entries }
  else (s.setSweep { r with entries := [], offered := r.offered + 1 }).offerNotice
        (mediaNotice 1 (zeros 3 ++ enc1 z) (r.offered + 1) false entries)

/-- The cartridge is in the room: SHELVED, ACCLIMATIZING or CONSIGNED (R113). -/
def inRoom : Custody → Bool
  | .shelved | .acclimatizing _ | .consigned _ => true
  | _ => false

/-- A visit of an occupied slot (R113). -/
def sweepRecordVisit (s : State) (z slot : Nat) (r : MediaRec) : State :=
  if r.home = z ∧ inRoom r.custody = true ∧ r.agent = false then
    (s.setMedia slot (some { r with agent := true })).gatherMark z slot r.id
  else s

/-- The end of a sweep: the final notice, then the sweep of the zone at the head of the queue (R112, R113). -/
def endSweep (s : State) (z : Nat) : State :=
  let r := s.csu.sweep
  let s1 := s.offerNotice (mediaNotice 1 (zeros 3 ++ enc1 z) (r.offered + 1) true r.entries)
  match r.queue with
  | [] => s1.setSweep .idle
  | next :: rest => s1.setSweep ⟨some (next, 0), rest, [], 0⟩

/-- One visit of the running sweep (R113); the position is the slot visited next (log 42). -/
def agentSweepVisit (s : State) : State :=
  match s.csu.sweep.running with
  | none => s
  | some (z, slot) =>
    let s1 := match s.mediaAt slot with
      | some r => s.sweepRecordVisit z slot r
      | none => s
    if slot + 1 < Config.slotCount then s1.setSweep { s1.csu.sweep with running := some (z, slot + 1) }
    else s1.endSweep z

end State

/-- AGENT_SWEEP_VISIT (R112, R113). -/
def execAgentSweepVisit (s : State) : Host.Outcome State Fault Refusal := .next s.agentSweepVisit

/-! ### Item operations (R115) -/

/-- The operations HOC may ask of one media record. -/
inductive ItemOp where
  | outboundConsign (number : Nat)
  | inboundConsign (number : Nat)
  | outboundPass
  | inboundPass (home : Nat) (release : Minute)
  | outboundMissing
  | inboundMissing
  | outboundRevert
  | inboundRevert
  deriving DecidableEq, Repr

/-- The record after an operation; from any other state it is unchanged (R115). -/
def ItemOp.apply (op : ItemOp) (r : MediaRec) : MediaRec :=
  match op, r.custody with
  | .outboundConsign n, .shelved => { r with custody := .consigned n }
  | .inboundConsign n, .out => { r with custody := .arriving n }
  | .outboundPass, .consigned _ => { r with custody := .out }
  | .inboundPass home release, .arriving _ => { r with custody := .acclimatizing release, home := home }
  | .outboundMissing, .consigned _ => { r with custody := .shelved, manual := true }
  | .inboundMissing, .arriving _ => { r with custody := .out }
  | .outboundRevert, .consigned _ => { r with custody := .shelved }
  | .inboundRevert, .arriving _ => { r with custody := .out }
  | _, _ => r

/-- One item operation on the record of a slot, as one event of the Custody Unit (R115). -/
def State.itemOp (s : State) (slot : Nat) (op : ItemOp) : State :=
  match s.mediaAt slot with
  | some r => s.setMedia slot (some (op.apply r))
  | none => s

/-! ### MEDIA requests (R116 to R119) -/

/-- The initial states of MEDIA ENTER (R116). -/
def initialCustody : Nat → Option Custody
  | 0 => some .shelved
  | 3 => some .out
  | _ => none

/-- The codes of a hold: MANUAL 00h, AGENT 01h; true is AGENT (11.4). -/
def holdOfCode : Nat → Option Bool
  | 0 => some false
  | 1 => some true
  | _ => none

namespace State

/-- MEDIA ENTER (R116). -/
def mediaEnter (s : State) (tag : Byte) (id : Ident) (cls home initial : Nat) : State :=
  match identOk id, initialCustody initial with
  | true, some c =>
    if 7 < cls ∨ 15 < home then s.reply Req.mediaEnter tag .range []
    else match s.mediaById id with
      | some (slot, _) => s.replyRefused Req.mediaEnter tag .duplicate (enc2 slot)
      | none =>
        match s.lowestFreeSlot with
        | none => s.reply Req.mediaEnter tag .full []
        | some slot => (s.setMedia slot (some ⟨id, cls, home, c, false, false⟩)).reply Req.mediaEnter tag .done (enc2 slot)
  | _, _ => s.reply Req.mediaEnter tag .malformed []

/-- MEDIA DELETE (R117). -/
def mediaDelete (s : State) (tag : Byte) (id : Ident) : State :=
  if identOk id then
    match s.mediaById id with
    | none => s.reply Req.mediaDelete tag .notFound []
    | some (slot, r) =>
      match r.custody with
      | .shelved | .out => (s.setMedia slot none).reply Req.mediaDelete tag .done (enc2 slot)
      | c => s.replyRefused Req.mediaDelete tag .state (enc1 c.code)
  else s.reply Req.mediaDelete tag .malformed []

/-- MEDIA MOVE (R117), RANGE before NOT_FOUND (log 33). -/
def mediaMove (s : State) (tag : Byte) (id : Ident) (home : Nat) : State :=
  if identOk id then
    if 15 < home then s.reply Req.mediaMove tag .range []
    else match s.mediaById id with
      | none => s.reply Req.mediaMove tag .notFound []
      | some (slot, r) =>
        if r.custody = .shelved then
          (s.setMedia slot (some { r with home := home })).reply Req.mediaMove tag .done (enc1 r.home ++ enc1 home)
        else s.replyRefused Req.mediaMove tag .state []
  else s.reply Req.mediaMove tag .malformed []

/-- MEDIA HOLD SET (R118). -/
def mediaHoldSet (s : State) (tag : Byte) (id : Ident) (hold : Nat) : State :=
  match identOk id, holdOfCode hold with
  | true, some agent =>
    match s.mediaById id with
    | none => s.reply Req.mediaHoldSet tag .notFound []
    | some (slot, r) =>
      let r' : MediaRec := if agent then { r with agent := true } else { r with manual := true }
      (s.setMedia slot (some r')).reply Req.mediaHoldSet tag .done (enc1 r'.holdByte)
  | _, _ => s.reply Req.mediaHoldSet tag .malformed []

/-- MEDIA HOLD CLEAR (R118): a clear of AGENT is refused while the home zone is not QUIET, in the hold set or not
(log 41). -/
def mediaHoldClear (s : State) (tag : Byte) (id : Ident) (hold : Nat) : State :=
  match identOk id, holdOfCode hold with
  | true, some agent =>
    match s.mediaById id with
    | none => s.reply Req.mediaHoldClear tag .notFound []
    | some (slot, r) =>
      if agent = true ∧ s.fireState r.home ≠ .quiet then s.replyRefused Req.mediaHoldClear tag .fire []
      else
        let r' : MediaRec := if agent then { r with agent := false } else { r with manual := false }
        (s.setMedia slot (some r')).reply Req.mediaHoldClear tag .done (enc1 r'.holdByte)
  | _, _ => s.reply Req.mediaHoldClear tag .malformed []

/-- MEDIA QUERY (R119). -/
def mediaQuery (s : State) (tag : Byte) (id : Ident) : State :=
  if identOk id then
    match s.mediaById id with
    | none => s.reply Req.mediaQuery tag .notFound []
    | some (slot, r) => s.reply Req.mediaQuery tag .done (enc2 slot ++ r.image ++ enc4 s.now)
  else s.reply Req.mediaQuery tag .malformed []

end State

def execMediaEnter (tag : Byte) (id : Ident) (cls home initial : Nat) (s : State) : Host.Outcome State Fault Refusal :=
  .next (s.serve (.mediaEnter tag id cls home initial) Req.mediaEnter tag (fun s => s.mediaEnter tag id cls home initial))

def execMediaDelete (tag : Byte) (id : Ident) (s : State) : Host.Outcome State Fault Refusal :=
  .next (s.serve (.mediaDelete tag id) Req.mediaDelete tag (fun s => s.mediaDelete tag id))

def execMediaMove (tag : Byte) (id : Ident) (home : Nat) (s : State) : Host.Outcome State Fault Refusal :=
  .next (s.serve (.mediaMove tag id home) Req.mediaMove tag (fun s => s.mediaMove tag id home))

def execMediaHoldSet (tag : Byte) (id : Ident) (hold : Nat) (s : State) : Host.Outcome State Fault Refusal :=
  .next (s.serve (.mediaHoldSet tag id hold) Req.mediaHoldSet tag (fun s => s.mediaHoldSet tag id hold))

def execMediaHoldClear (tag : Byte) (id : Ident) (hold : Nat) (s : State) : Host.Outcome State Fault Refusal :=
  .next (s.serve (.mediaHoldClear tag id hold) Req.mediaHoldClear tag (fun s => s.mediaHoldClear tag id hold))

def execMediaQuery (tag : Byte) (id : Ident) (s : State) : Host.Outcome State Fault Refusal :=
  .next (s.serve (.mediaQuery tag id) Req.mediaQuery tag (fun s => s.mediaQuery tag id))

end Sys2Proof.Machine
end

