-- ==== Sys2Proof/Machine/Fire.lean ====
section
/-!
DEFINITION. The Fire Supervisor (R70 to R97): stages, UNMONITORED, the zone fire state machine, the release countdown,
sounders and the fire requests.
-/
namespace Sys2Proof.Machine

/-- A usable stage (R73). -/
def Stage.usable : Stage → Bool
  | .clear | .low | .high => true
  | .noReport | .fault | .silent => false

/-- A stage that holds DETECTOR_FAULT (R74). -/
def Stage.detectorFault : Stage → Bool
  | .fault | .silent => true
  | .noReport | .clear | .low | .high => false

/-- SMOKE, HEAT or CALL_POINT (R72 step 5, R95). -/
def InputKind.detects : InputKind → Bool
  | .smoke | .heat | .callPoint => true
  | .holdSwitch | .releaseSwitch => false

/-- The sounder pattern of a fire state (R91). -/
def soundPattern : FireState → Nat
  | .quiet => Sound.off
  | .preAlarm => Sound.pulseSlow
  | .alarm => Sound.continuous
  | .releaseCountdown => Sound.pulseFast
  | .released => Sound.continuous

namespace State

/-- The stages of a zone's inputs of a set of kinds. -/
def stagesOf (s : State) (z : Nat) (k : InputKind → Bool) : List Stage :=
  (s.inputsOf z k).map (fun e => s.inputStage e.index)

/-- An input of one kind of the zone is HIGH. -/
def anyHigh (s : State) (z : Nat) (k : InputKind) : Bool :=
  (s.stagesOf z (fun j => decide (j = k))).any (fun g => decide (g = .high))

/-! ### Frames, notice and reports of a fire state change -/

/-- The zone's sounders (R19). -/
def soundersOf (s : State) (z : Nat) : List Nat := s.actuatorsOf z (fun f => decide (f = .sounder))

/-- An urgent SOUND to each of the zone's sounders. -/
def soundZone (s : State) (z pattern : Nat) : State :=
  s.queueUrgentAll (s.soundersOf z) Kind.sound (enc1 pattern ++ enc1 0)

/-- An urgent DRIVE to each of the zone's actuators of a set of functions. -/
def driveZone (s : State) (z : Nat) (f : Function → Bool) (command : Nat) : State :=
  s.queueUrgentAll (s.actuatorsOf z f) Kind.drive (enc1 command)

/-- The ZONE notice of a fire state change (R96). -/
def fireNotice (s : State) (z : Nat) (before : FireState) : List Byte :=
  let f := s.fire z
  let c := s.climate z
  ZoneNoticeFields.payload
    { zone := z, changeType := 1, before := before.code, after := f.state.code, climate := c.state, fire := f.state
      cause := f.cause, coupled := f.coupledSources, silenced := f.silenced, unmonitored := f.unmonitored
      reading := c.reading, validCount := 0, exposure := 0, exposed := false }

/-- The Handover Controller is told of a fire state change with the new value (R97). -/
def tellFire (s : State) (z : Nat) (st : FireState) : State := s.hand (.zoneReport z (.fireChanged st))

/-! ### UNMONITORED (R75) -/

/-- No SMOKE or HEAT input of the zone is at a usable stage. -/
def unmonitoredNow (s : State) (z : Nat) : Bool :=
  !(s.stagesOf z (fun k => decide (k = .smoke) || decide (k = .heat))).any Stage.usable

/-- A station entry of any kind has the zone as its zone. -/
def zoneHasStations (s : State) (z : Nat) : Bool := s.stationList.any (fun p => decide (p.2.zone = some z))

/-- The flag is computed; a change moves ZONE_UNMONITORED and is handed to the Handover Controller (R75, R97). -/
def recomputeUnmonitored (s : State) (z : Nat) : State :=
  let u := s.unmonitoredNow z
  if u = (s.fire z).unmonitored then s
  else
    let s1 := s.setFire z { s.fire z with unmonitored := u }
    let s2 := if u then (if s1.zoneHasStations z then s1.raiseCondition .zoneUnmonitored z else s1)
              else s1.lower .zoneUnmonitored z
    s2.hand (.zoneReport z (.unmonitoredChanged u))

/-! ### The release gate (R88) -/

/-- A hatch is known to be closed. -/
def hatchKnownClosed (s : State) (h : Nat) : Bool :=
  decide ((s.hatchRuntime h).position = .closedLocked) && !(s.hatchRuntime h).unitSilent

/-- A zone's release gate holds. -/
def releaseGate (s : State) (z : Nat) : Bool :=
  s.anyHigh z .holdSwitch
    || (match s.hatchByInner z with
        | some (h, _) => !s.hatchKnownClosed h
        | none => false)

/-- The release timer's gate is set to the release gate while the zone is in RELEASE_COUNTDOWN. -/
def regateRelease (s : State) (z : Nat) : State :=
  if s.fireState z = .releaseCountdown then s.setReleaseTimer z ((s.releaseTimer z).setGate (s.releaseGate z)) else s

/-! ### The fire state machine (R79 to R87) -/

/-- A zone enters RELEASE_COUNTDOWN (R87). -/
def enterCountdown (s : State) (z : Nat) : State :=
  let before := s.fireState z
  let s1 := s.setFire z { s.fire z with state := .releaseCountdown, silenced := false }
  let s2 := s1.setReleaseTimer z ((s1.releaseTimer z).start (s1.zone z).releaseDelay false true)
  let s3 := s2.regateRelease z
  let s4 := (s3.driveZone z (fun f => decide (f = .damper)) Drive.close).soundZone z Sound.pulseFast
  ((s4.offerNotice (s4.fireNotice z before)).raiseCondition .releaseCountdown z).tellFire z .releaseCountdown

/-- The first alarm condition that holds (R80). -/
def alarmCause (s : State) (z : Nat) : Option Cause :=
  let n := (s.zone z).coincidence
  let smoke := s.stagesOf z (fun k => decide (k = .smoke))
  if s.anyHigh z .heat then some .heat
  else if s.anyHigh z .callPoint then some .callPoint
  else if 2 ≤ n ∧ n ≤ (smoke.filter (fun g => decide (g = .low ∨ g = .high))).length then some .coincidence
  else if s.anyHigh z .smoke then some .single
  else none

/-- The countdown begins at ALARM entry (R86, R83 step 5). -/
def countdownAtEntry (s : State) (z : Nat) (cause : Cause) : Bool :=
  (s.zone z).fitted
    && (((s.zone z).autoRelease && decide (cause = .heat ∨ cause = .coincidence)) || s.anyHigh z .releaseSwitch)

/-- The zone is added to the coupled-source set of one zone, which is then evaluated as an event of its own (R84). -/
def coupleOne (z : Nat) (s : State) (t : Nat) : State :=
  if z ∈ (s.fire t).coupledSources then s
  else (s.setFire t { s.fire t with coupledSources := insertSorted (s.fire t).coupledSources z }).hand
        (.coupledZoneEvaluation t)

/-- The zone is removed from the coupled-source set of one zone (R84). -/
def uncoupleOne (z : Nat) (s : State) (t : Nat) : State :=
  if z ∈ (s.fire t).coupledSources then
    (s.setFire t { s.fire t with coupledSources := eraseNat (s.fire t).coupledSources z }).hand
      (.coupledZoneEvaluation t)
  else s

/-- Entry to ALARM (R83). -/
def enterAlarm (s : State) (z : Nat) (cause : Cause) : State :=
  let before := s.fireState z
  let s1 := s.setFire z { s.fire z with state := .alarm, cause := some cause, silenced := false }
  let s2 := (s1.driveZone z (fun f => decide (f = .humidifier ∨ f = .dehumidifier)) Drive.off).soundZone z
              Sound.continuous
  let s3 := s2.offerNotice (s2.fireNotice z before)
  let s4 := if before = .preAlarm then s3.lower .firePreAlarm z else s3
  let s5 := ((s4.raiseCondition .fireAlarm z).commandsOff z).tellFire z .alarm
  let s6 := if s5.countdownAtEntry z cause then s5.enterCountdown z else s5
  (s6.zone z).coupledList.foldl (coupleOne z) s6

/-- The pre-alarm condition (R81). -/
def preAlarmHolds (s : State) (z : Nat) : Bool :=
  (s.stagesOf z (fun k => decide (k = .smoke))).any (fun g => decide (g = .low))
    || !(s.fire z).coupledSources.isEmpty

/-- A change between QUIET and PRE_ALARM is handed on (R85). -/
def changeQuiet (s : State) (z : Nat) (new : FireState) : State :=
  let before := s.fireState z
  let s1 := (s.setFire z { s.fire z with state := new, silenced := false }).soundZone z (soundPattern new)
  let s2 := s1.offerNotice (s1.fireNotice z before)
  let s3 := if new = .preAlarm then s2.raiseCondition .firePreAlarm z else s2.lower .firePreAlarm z
  s3.tellFire z new

/-- A zone below ALARM is settled (R81). -/
def settleFire (s : State) (z : Nat) : State :=
  match s.fireState z, s.preAlarmHolds z with
  | .quiet, true => s.changeQuiet z .preAlarm
  | .preAlarm, false => s.changeQuiet z .quiet
  | _, _ => s

/-- An evaluation of a zone (R79). -/
def evaluateFire (s : State) (z : Nat) : State :=
  if belowAlarm (s.fireState z) then
    match s.alarmCause z with
    | some cause => s.enterAlarm z cause
    | none => s.settleFire z
  else s

/-! ### Stage changes (R71, R72, R89) -/

/-- DETECTOR_FAULT follows a change of stage (R74). -/
def detectorFaultFollows (s : State) (addr : Nat) (old new : Stage) : State :=
  match old.detectorFault, new.detectorFault with
  | false, true => s.raiseCondition .detectorFault addr
  | true, false => s.lower .detectorFault addr
  | _, _ => s

/-- A HOLD_SWITCH changed in RELEASE_COUNTDOWN (R89, then R88); an expiry already handed is still taken (log 47). -/
def holdChanged (s : State) (z : Nat) (old : Stage) : State :=
  if s.fireState z = .releaseCountdown then
    let s1 := if old = .high then s.setReleaseTimer z (s.releaseTimer z).trigger else s
    s1.regateRelease z
  else s

/-- Steps 3 to 5 of R72. -/
def inputChanged (s : State) (z : Nat) (k : InputKind) (old new : Stage) : State :=
  match k with
  | .holdSwitch => s.holdChanged z old
  | .releaseSwitch =>
    if new = .high ∧ s.fireState z = .alarm ∧ (s.zone z).fitted = true then s.enterCountdown z else s
  | .smoke | .heat | .callPoint => s.evaluateFire z

/-- The stage of a FIRE_INPUT station's input becomes `new` (R71, R72), also from a STAGE taken while the station is SILENT
(log 51). -/
def setStage (s : State) (e : StationEntry) (new : Stage) : State :=
  let old := s.inputStage e.index
  if old = new then s
  else
    let s1 := (s.setInputStage e.index new).detectorFaultFollows e.addr old new
    match e.zone with
    | some z => (s1.recomputeUnmonitored z).inputChanged z (s.inputKind e.index) old new
    | none => s1

/-! ### Release (R90) and chime (R93) -/

/-- A zone in RELEASE_COUNTDOWN enters RELEASED (R90). -/
def enterReleased (s : State) (z : Nat) : State :=
  let before := s.fireState z
  let s1 := s.setFire z { s.fire z with state := .released, silenced := false }
  let s2 := (s1.queueUrgentAll (s1.actuatorsOf z (fun f => decide (f = .suppression))) Kind.release (enc1 z)).soundZone z
              Sound.continuous
  let s3 := s2.offerNotice (s2.fireNotice z before)
  let s4 := (s3.lower .releaseCountdown z).raiseCondition .released z
  (s4.sweepZone z).tellFire z .released

/-- An expiry of a zone's release timer, acknowledged in the same event (R90). A timer triggered or gated since the handing
is stopped and ungated, so that it runs and is gated in RELEASE_COUNTDOWN only (R88; log 47). -/
def releaseExpired (z : Nat) (s : State) : State :=
  if s.fireState z = .releaseCountdown then
    (s.setReleaseTimer z ((s.releaseTimer z).stop.setGate false)).enterReleased z
  else s.setReleaseTimer z (s.releaseTimer z).acknowledge

/-- The chime of a zone after a COMPLETE handover (R93). -/
def chime (s : State) (z : Nat) : State :=
  if s.fireState z = .quiet then s.originateAll .frs (s.soundersOf z) Kind.sound (enc1 Sound.chime ++ enc1 0) else s

/-! ### ACTIVATE and DEACTIVATE (R71, R75, R78, R177, R178) -/

/-- Every input is NO_REPORT, with DETECTOR_FAULT lowered; every fire record and release timer starts again. -/
def restartFire (s : State) : State :=
  let s1 := s.lowerAll .detectorFault
  let s2 : State := { s1 with frs := { s1.frs with stages := [], fire := [] } }
  zoneNumbers.foldl (fun s z => s.setReleaseTimer z (s.releaseTimer z).stop) s2

/-- The Fire Supervisor at an accepted ACTIVATE: UNMONITORED is recomputed in zone order (R75; log 40). -/
def activateFire (s : State) : State := zoneNumbers.foldl recomputeUnmonitored s.restartFire

/-- The cleared UNMONITORED flags lower ZONE_UNMONITORED and are handed on as changes (R75, R97). -/
def deactivateFire (s : State) : State :=
  let set := zoneNumbers.filter (fun z => (s.fire z).unmonitored)
  set.foldl (fun s z => s.hand (.zoneReport z (.unmonitoredChanged false))) (s.restartFire.lowerAll .zoneUnmonitored)

/-! ### Requests (R92, R94, R95) -/

/-- ZONE SILENCE (R92), RANGE before NOT_ACTIVE (log 33). -/
def zoneSilenceRequest (s : State) (tag : Byte) (z : Nat) : State :=
  if 15 < z then s.reply Req.zoneSilence tag .range []
  else if !s.active then s.replyRefused Req.zoneSilence tag .notActive []
  else match s.fireState z with
    | .alarm | .released =>
      let s1 := (s.setFire z { s.fire z with silenced := true }).soundZone z Sound.off
      s1.reply Req.zoneSilence tag .done (enc1 (s1.fireState z).code)
    | _ => s.replyRefused Req.zoneSilence tag .notSilenceable []

/-- ZONE RELEASE (R94); its REPLY follows the ALERT notice of the entry too (log 49). -/
def zoneReleaseRequest (s : State) (tag : Byte) (z : Nat) : State :=
  if 15 < z then s.reply Req.zoneRelease tag .range []
  else if !s.active then s.replyRefused Req.zoneRelease tag .notActive []
  else if !(s.zone z).fitted then s.replyRefused Req.zoneRelease tag .notFitted []
  else match s.fireState z with
    | .quiet | .preAlarm => s.replyRefused Req.zoneRelease tag .notInAlarm []
    | .releaseCountdown | .released => s.replyRefused Req.zoneRelease tag .alreadyReleasing []
    | .alarm => (s.enterCountdown z).reply Req.zoneRelease tag .done (enc1 FireState.releaseCountdown.code)

/-- The first SMOKE, HEAT or CALL_POINT input of the zone that is not CLEAR, in station table order (R95). -/
def firstNotClear (s : State) (z : Nat) : Option StationEntry :=
  (s.inputsOf z InputKind.detects).find? (fun e => decide (s.inputStage e.index ≠ .clear))

/-- Steps 1 to 5 of an accepted ZONE FIRE RESET (R95). -/
def resetFire (s : State) (z : Nat) : State :=
  let before := s.fireState z
  let s1 := if before = .releaseCountdown then s.setReleaseTimer z ((s.releaseTimer z).stop.setGate false) else s
  let new : FireState := if s1.preAlarmHolds z then .preAlarm else .quiet
  let s2 := s1.setFire z { s1.fire z with state := new, cause := none, silenced := false }
  let s3 := s2.soundZone z (soundPattern new)
  let s4 := s3.offerNotice (s3.fireNotice z before)
  let s5 := ((s4.lower .fireAlarm z).lower .releaseCountdown z).lower .released z
  let s6 := if new = .preAlarm then s5.raiseCondition .firePreAlarm z else s5
  let s7 := s6.tellFire z new
  (s7.zone z).coupledList.foldl (uncoupleOne z) s7

/-- ZONE FIRE RESET (R95). -/
def zoneFireResetRequest (s : State) (tag : Byte) (z : Nat) : State :=
  if 15 < z then s.reply Req.zoneFireReset tag .range []
  else if !s.active then s.replyRefused Req.zoneFireReset tag .notActive []
  else if belowAlarm (s.fireState z) then s.replyRefused Req.zoneFireReset tag .notLatched []
  else match s.firstNotClear z with
    | some e => s.replyRefused Req.zoneFireReset tag .detectorsActive (enc1 e.addr)
    | none =>
      let s1 := s.resetFire z
      s1.reply Req.zoneFireReset tag .done (enc1 (s.fireState z).code ++ enc1 (s1.fireState z).code)

end State

/-- STAGE (R71, R72). -/
def execStage (entry : Nat) (payload : List Byte) (s : State) : Host.Outcome State Fault Refusal :=
  .next (s.take (.stage entry payload) entry (fun e => decide (e.kind = .fireInput)) (fun s =>
    s.setStage (s.station entry) (stageOfPayload payload)))

/-- The evaluation of a zone whose coupled-source set changed (R79, R84). -/
def execCoupledZoneEvaluation (zone : Nat) (s : State) : Host.Outcome State Fault Refusal :=
  .next (s.takeEvent (.coupledZoneEvaluation zone) (fun s => if s.active then s.evaluateFire zone else s))

/-- An expiry of a zone's release timer (R90). -/
def execReleaseTimerExpiry (zone : Nat) (s : State) : Host.Outcome State Fault Refusal :=
  .next (s.takeEvent (.releaseTimerExpiry zone) (State.releaseExpired zone))

def execZoneFireReset (tag : Byte) (zone : Nat) (s : State) : Host.Outcome State Fault Refusal :=
  .next (s.serve (.zoneFireReset tag zone) Req.zoneFireReset tag (fun s => s.zoneFireResetRequest tag zone))

def execZoneRelease (tag : Byte) (zone : Nat) (s : State) : Host.Outcome State Fault Refusal :=
  .next (s.serve (.zoneRelease tag zone) Req.zoneRelease tag (fun s => s.zoneReleaseRequest tag zone))

def execZoneSilence (tag : Byte) (zone : Nat) (s : State) : Host.Outcome State Fault Refusal :=
  .next (s.serve (.zoneSilence tag zone) Req.zoneSilence tag (fun s => s.zoneSilenceRequest tag zone))

end Sys2Proof.Machine
end

