-- ==== Sys2Proof/Machine/Handover.lean ====
section
/-!
DEFINITION. The Handover Controller (R120 to R146): hatch positions and expectations, the frames of the hatch stations,
the condensation gate, offer, unlock, transfer, closing, aborting, timer expiries, CONSIGN and CONSIGN CANCEL.
-/
namespace Sys2Proof.Machine

/-- A field frame the Handover Controller queues: an ordinary one, or the urgent HATCH LOCK of a fire abort (R144). -/
inductive HocFrame where
  | ordinary (dst kind : Nat) (payload : List Byte)
  | urgentLock (unit : Nat)

/-- One event of the Handover Controller under way: the state with its records and item operations already changed, and
the frames, notices, alerts and chimes it gives, which follow in that order (R123; log 17). -/
structure Work where
  s : State
  frames : List HocFrame
  notices : List (List Byte)
  alerts : List (AlertKind × Nat)
  chimes : List Nat

def State.begin (s : State) : Work := ⟨s, [], [], [], []⟩

def State.queueHoc (s : State) (f : HocFrame) : State :=
  match f with
  | .ordinary dst kind payload => s.originate .hoc dst kind payload
  | .urgentLock unit => s.queueUrgent unit Kind.hatch (enc1 HatchCommand.lock)

/-- The event ends: frames, then notices, then alerts, then chimes. -/
def Work.finish (w : Work) : State :=
  let s1 := w.frames.foldl State.queueHoc w.s
  let s2 := w.notices.foldl State.offerNotice s1
  let s3 := w.alerts.foldl (fun s a => s.raiseEvent a.1 a.2) s2
  w.chimes.foldl State.chime s3

namespace Work

def mapState (w : Work) (f : State → State) : Work := { w with s := f w.s }
def frame (w : Work) (dst kind : Nat) (payload : List Byte) : Work :=
  { w with frames := w.frames ++ [.ordinary dst kind payload] }
def notice (w : Work) (ps : List (List Byte)) : Work := { w with notices := w.notices ++ ps }
def alert (w : Work) (k : AlertKind) (h : Nat) : Work := { w with alerts := w.alerts ++ [(k, h)] }

end Work

/-! ### The HANDOVER notice (R127, R185, 11.5) -/

namespace HandoverEvent
def state : Nat := 0
def outcome : Nat := 1
def item : Nat := 2
def arriveRefused : Nat := 3
end HandoverEvent

/-- The head of a HANDOVER notice up to its item count. -/
structure HandoverHead where
  hatch : Nat
  event : Nat
  number : Nat
  direction : Nat
  courier : Ident
  before : Nat
  after : Nat
  abort : Option (AbortReason × ConsignState)
  endCause : Option EndCause
  itemCount : Nat
  refusal : Nat

/-- One frame of a HANDOVER notice; item indices count from 1 (log 15). -/
def HandoverHead.frame (hd : HandoverHead) (now : Minute) (part : Nat) (final : Bool) (first : Nat)
    (items : List (List Byte)) : List Byte :=
  enc1 3 ++ enc1 hd.hatch ++ enc4 now ++ enc1 hd.event ++ enc2 hd.number ++ enc1 hd.direction ++ field hd.courier 0 8
    ++ enc1 hd.before ++ enc1 hd.after
    ++ (match hd.abort with
        | some (r, st) => enc1 r.code ++ enc1 st.code
        | none => zeros 2)
    ++ enc1 (match hd.endCause with | some c => c.code | none => 0)
    ++ enc1 hd.itemCount ++ enc1 part ++ encBool final ++ enc1 first ++ enc1 items.length ++ enc1 hd.refusal
    ++ items.flatten

/-- The one or two frames of a HANDOVER notice (R185). -/
def HandoverHead.frames (hd : HandoverHead) (now : Minute) (items : List (List Byte)) : List (List Byte) :=
  if items.length ≤ Config.handoverFrameItems then [hd.frame now 1 true 1 items]
  else
    [hd.frame now 1 false 1 (items.take Config.handoverFrameItems),
     hd.frame now 2 true (Config.handoverFrameItems + 1) (items.drop Config.handoverFrameItems)]

/-- The release minute an item of a notice carries: that of its record, for a PASSED inbound item (log 20). -/
def State.itemRelease (s : State) (d : Direction) (i : Item) : List Byte :=
  match d, i.status, s.mediaAt i.slot with
  | .inbound, .passed, some r =>
    if r.id = i.id then (match r.custody with | .acclimatizing m => enc4 m | _ => zeros 4) else zeros 4
  | _, _, _ => zeros 4

/-- The items of a HANDOVER notice. -/
def State.itemImages (s : State) (c : Consignment) : List (List Byte) :=
  c.items.map (fun i => field i.id 0 8 ++ enc2 i.slot ++ enc1 i.status.code ++ s.itemRelease c.direction i)

/-- The frames of a HANDOVER notice about a consignment as it stands. -/
def State.handoverNotice (s : State) (c : Consignment) (event before after : Nat) : List (List Byte) :=
  HandoverHead.frames
    { hatch := c.hatch, event := event, number := c.number, direction := c.direction.code, courier := c.courier
      before := before, after := after, abort := c.abort, endCause := c.endCause, itemCount := c.items.length
      refusal := 0 } s.now (s.itemImages c)

/-! ### The condensation gate (R133) and the acclimatization hold (R140) -/

def State.gatePasses (s : State) (c : Consignment) : Bool :=
  let he := s.hatch c.hatch
  let inner := (s.climate he.inner).reading
  match c.direction with
  | .inbound =>
    (match c.caseTemp, inner with
     | some t, some r => decide (r.td + he.margin ≤ t)
     | _, _ => false)
  | .outbound =>
    match he.outer with
    | none => true
    | some z =>
      match inner, (s.climate z).reading with
      | some i, some o => decide (o.td + he.margin ≤ i.t)
      | _, _ => false

/-- A number divided by 10, rounded up (R140 steps 3 and 4). -/
def tenthsUp (n : Nat) : Nat := (n + 9) / 10

/-- The acclimatization hold in minutes (R140). -/
def acclimatizationHold (f : FrozenFigures) (e : ClassEntry) : Nat :=
  let dT := (f.meanT - f.innerT).natAbs
  let dH := ((f.meanRh : Int) - f.innerRh).natAbs
  let raw := e.baseHold + tenthsUp (dT * e.kT) + tenthsUp (dH * e.kH)
  let cap := max e.baseHold (2 * f.minutes)
  min raw (min cap 4095)

/-! ### Items (R115, R140, R143) -/

/-- The operation of an item marked MISSING at the end of TRANSFER. -/
def missingOp : Direction → ItemOp
  | .outbound => .outboundMissing
  | .inbound => .inboundMissing

/-- The operation of an item reverted at a cancel, an expiry or an abort. -/
def revertOp : Direction → ItemOp
  | .outbound => .outboundRevert
  | .inbound => .inboundRevert

/-- Every PENDING item marked MISSING. -/
def missItems (c : Consignment) : Consignment :=
  { c with items := c.items.map (fun i => if i.status = .pending then { i with status := .missing } else i) }

/-- The matching operation on the record of every PENDING item. -/
def State.missPending (s : State) (c : Consignment) (op : ItemOp) : State :=
  c.items.foldl (fun s i => if i.status = .pending then s.itemOp i.slot op else s) s

namespace Work

/-! ### Changes of state and removal (R126, R129) -/

def setRuntime (w : Work) (h : Nat) (f : HatchRuntime → HatchRuntime) : Work :=
  w.mapState (fun s => s.setHatchRuntime h (f (s.hatchRuntime h)))

def startStep (w : Work) (h load : Nat) (continuous retrigger : Bool) : Work :=
  w.mapState (fun s => s.setStepTimer h ((s.stepTimer h).start load continuous retrigger))

/-- The record of `c` is stored and a STATE notice tells the change from `before`. -/
def enter (w : Work) (c : Consignment) (before : ConsignState) : Work :=
  let w1 := w.mapState (fun s => s.setConsignment c)
  w1.notice (w1.s.handoverNotice c HandoverEvent.state before.code c.state.code)

/-- A consignment is removed with an outcome (R126). -/
def remove (w : Work) (c : Consignment) (o : HandoverEnd) : Work :=
  let w1 := (w.notice (w.s.handoverNotice c HandoverEvent.outcome c.state.code o.code)).mapState
    (fun s => s.dropConsignment c.number)
  if c.state = .waiting then w1
  else
    (w1.mapState (fun s => (s.setStepTimer c.hatch (s.stepTimer c.hatch).stop).setDwellTimer c.hatch
      (s.dwellTimer c.hatch).stop)).setRuntime c.hatch
        (fun r => { r with dwellDone := false, unlockRef := none, urgent := false })

/-- A HATCH LOCK to the hatch unit. -/
def lock (w : Work) (h : Nat) (urgent : Bool) : Work :=
  let unit := (w.s.hatch h).unit
  if urgent then { w with frames := w.frames ++ [.urgentLock unit] }
  else w.frame unit Kind.hatch (enc1 HatchCommand.lock)

/-! ### Aborting (R143, R144) -/

/-- An ABORTING consignment acts on the last position (R144). -/
def abortingPosition (w : Work) (c : Consignment) : Work :=
  let r := w.s.hatchRuntime c.hatch
  match r.position with
  | .closedLocked => if r.unitSilent then w else w.remove c .aborted
  | .closedUnlocked => w.lock c.hatch r.urgent
  | .opened | .fault | .noReport => w

/-- A consignment enters ABORTING (R143) and the hatch is brought shut (R144). -/
def abort (w : Work) (c : Consignment) (why : AbortReason) : Work :=
  let before := c.state
  let c1 : Consignment := { missItems c with state := .aborting, abort := some (why, before) }
  let w1 := w.mapState (fun s => s.missPending c (revertOp c.direction))
  let w2 := (w1.mapState (fun s => s.setDwellTimer c.hatch (s.dwellTimer c.hatch).stop)).setRuntime c.hatch
    (fun r => { r with urgent := decide (why = .fire), dwellDone := false })
  let w3 := (w2.enter c1 before).alert .handoverAborted c.hatch
  if w3.s.hatchKnownClosed c.hatch then w3.abortingPosition c1
  else (w3.startStep c.hatch (w3.s.hatch c.hatch).closeTimeout true false).abortingPosition c1

/-! ### Closing (R142) -/

/-- A CLOSING consignment acts on the last position. -/
def closingPosition (w : Work) (c : Consignment) : Work :=
  let r := w.s.hatchRuntime c.hatch
  let he := w.s.hatch c.hatch
  match r.position with
  | .closedLocked =>
    if r.unitSilent then w
    else
      let w1 := w.remove c .complete
      { w1 with chimes := w1.chimes ++ [he.inner] }
  | .closedUnlocked =>
    if he.mode = .paced then
      w.mapState (fun s => s.setDwellTimer c.hatch ((s.dwellTimer c.hatch).start he.dwell false false))
    else w.lock c.hatch false
  | .opened | .noReport => w
  | .fault => w.abort c .hatchFault

/-- A consignment enters CLOSING with its end cause set (R141, R142). -/
def enterClosing (w : Work) (c : Consignment) (cause : EndCause) : Work :=
  let c1 : Consignment := { c with state := .closing, endCause := some cause }
  let w1 := w.startStep c.hatch (w.s.hatch c.hatch).closeTimeout true false
  (w1.enter c1 c.state).closingPosition c1

/-- A transfer ended by DONE or by its timeout (R141). -/
def endTransfer (w : Work) (c : Consignment) (cause : EndCause) : Work :=
  (w.mapState (fun s => s.missPending c (missingOp c.direction))).enterClosing (missItems c) cause

/-! ### Offer and unlock (R135, R137, R138) -/

/-- A consignment in OFFERED is ready to unlock (R137). -/
def ready (w : Work) (c : Consignment) : Bool :=
  let he := w.s.hatch c.hatch
  c.acceptReceived && (decide (he.mode ≠ .witnessed) || c.confirmReceived)
    && (w.s.hatchRuntime c.hatch).dwellDone
    && decide (w.s.fireState he.inner = .quiet) && decide (w.s.fireStateOf he.outer = .quiet)

/-- The unlock is tested (R137); a consignment that is ready enters UNLOCKING (R138). -/
def testUnlock (w : Work) (c : Consignment) : Work :=
  if c.state = .offered ∧ w.ready c = true then
    let he := w.s.hatch c.hatch
    let w1 := (w.frame he.unit Kind.hatch (enc1 HatchCommand.unlock)).setRuntime c.hatch
      (fun r => { r with unlockRef := some c.number })
    (w1.startStep c.hatch he.openTimeout false false).enter { c with state := .unlocking } c.state
  else w

/-- The payload of an OFFER (11.3). -/
def offerPayload (c : Consignment) : List Byte :=
  enc2 c.number ++ enc1 c.direction.code ++ enc1 c.items.length ++ c.items.flatMap (fun i => field i.id 0 8)

/-- The frozen figures (R135 step 1). -/
def frozenFigures (w : Work) (c : Consignment) : Option FrozenFigures :=
  match c.direction, c.caseFigures, (w.s.climate (w.s.hatch c.hatch).inner).reading with
  | .inbound, some f, some r => some ⟨f.meanT, f.meanRh, f.minutes, r.t, r.rh⟩
  | _, _, _ => none

/-- A consignment enters OFFERED (R135). -/
def enterOffered (w : Work) (c : Consignment) : Work :=
  let he := w.s.hatch c.hatch
  let c1 : Consignment := { c with state := .offered, frozen := w.frozenFigures c }
  let w1 := (w.frame he.terminal Kind.offer (offerPayload c1)).frame he.witness Kind.offer (offerPayload c1)
  let w2 := w1.startStep c.hatch he.acceptTimeout false false
  let w3 :=
    if he.mode = .paced then
      (w2.setRuntime c.hatch (fun r => { r with dwellDone := false })).mapState
        (fun s => s.setDwellTimer c.hatch ((s.dwellTimer c.hatch).start he.dwell false false))
    else w2.setRuntime c.hatch (fun r => { r with dwellDone := true })
  (w3.enter c1 c.state).testUnlock c1

/-- The condensation gate is run at ARRIVE or in AWAIT_CASE (R133). -/
def runGate (w : Work) (c : Consignment) : Work :=
  if w.s.gatePasses c then w.enterOffered c
  else (w.startStep c.hatch (w.s.hatch c.hatch).equalizeTimeout false false).enter { c with state := .equalizing } c.state

/-- The gate is retried in EQUALIZING (R134); the record of `c` is stored either way. -/
def retryGate (w : Work) (c : Consignment) : Work :=
  if c.state = .equalizing ∧ w.s.gatePasses c = true then w.enterOffered c
  else w.mapState (fun s => s.setConsignment c)

/-! ### Positions (R34, R122, R145) -/

/-- A position at which a hatch that expects CLOSED_LOCKED has been forced. -/
def ajar : Position → Bool
  | .opened | .closedUnlocked => true
  | .noReport | .closedLocked | .fault => false

/-- HATCH_FORCED, if the manual flag is CLEAR (R145). -/
def forced (w : Work) (h : Nat) : Work :=
  if (w.s.hatchRuntime h).manual then w else w.alert .hatchForced h

/-- A change of position of a hatch from `old` to `new` under its consignment (R122 step 3). -/
def positionRules (w : Work) (h : Nat) (old new : Position) : Work :=
  let force := ajar new && !ajar old
  match w.s.activeOn h with
  | none => if force then w.forced h else w
  | some c =>
    match c.state with
    | .waiting => w
    | .awaitCase | .equalizing | .offered =>
      if force then (w.forced h).abort c .hatchForced
      else if new = .fault then w.abort c .hatchFault
      else w
    | .unlocking =>
      if new = .opened then
        let he := w.s.hatch h
        (w.startStep h he.transferTimeout false he.transferRetrigger).enter { c with state := .transfer } c.state
      else if new = .fault then w.abort c .hatchFault
      else w
    | .transfer => if new = .fault then w.abort c .hatchFault else w
    | .closing => w.closingPosition c
    | .aborting => w.abortingPosition c

end Work

/-- R34: the manual flag and moved mark after a report. -/
def manualAfter (r : HatchRuntime) (p : Position) : HatchRuntime :=
  if r.manual then
    match p with
    | .closedUnlocked | .opened | .fault => { r with moved := true }
    | .closedLocked => if r.moved then { r with manual := false, moved := false } else r
    | .noReport => r
  else r

namespace State

/-- A POSITION report of a hatch unit (R122), stored and acted on like any other while the unit is SILENT
(log 48). -/
def reportPosition (s : State) (h : Nat) (he : HatchEntry) (new : Position) : State :=
  let r := s.hatchRuntime h
  let s1 := s.setHatchRuntime h (manualAfter { r with position := new } new)
  if r.position = new then s1
  else (((s1.regateRelease he.inner).begin).positionRules h r.position new).finish

/-- SILENT is set on a HATCH_UNIT station (R122, R145). -/
def hatchSilent (s : State) (e : StationEntry) : State :=
  match s.hatchByUnit e.addr with
  | none => s
  | some (h, he) =>
    let s1 := (s.setHatchRuntime h { s.hatchRuntime h with unitSilent := true, position := .noReport }).regateRelease
      he.inner
    match s1.activeOn h with
    | none => s1
    | some c => if c.state = .aborting then s1 else ((s1.begin).abort c .hatchFault).finish

/-- SILENT is cleared on a HATCH_UNIT station (R122). The last position is NO_REPORT again, whatever a POSITION taken in the
silence made it, so that the first POSITION after the return is a change (log 48). -/
def hatchReturned (s : State) (e : StationEntry) : State :=
  match s.hatchByUnit e.addr with
  | none => s
  | some (h, he) =>
    (s.setHatchRuntime h { s.hatchRuntime h with unitSilent := false, position := .noReport }).regateRelease he.inner

/-! ### Frames from the hatch stations (R128) -/

/-- The hatch in use whose courier terminal or witness reader a station is. -/
def hatchByStation (s : State) (a : Nat) : Option (Nat × HatchEntry) :=
  s.hatchesInUse.find? (fun p => p.2.terminal = a || p.2.witness = a)

end State

namespace Work

/-- The ANSWER to a step frame: the number of the consignment matched, or 0 (11.3; log 17). -/
def answerStep (w : Work) (dst : Nat) (k : StepKind) (number : Nat) (out : Outcome) : Work :=
  w.frame dst Kind.answer (enc1 k.code ++ enc2 number ++ zeros 6 ++ enc1 out.code)

/-- The ANSWER to an item scan: intent and media ID as received. -/
def answerScan (w : Work) (dst : Nat) (p : List Byte) (out : Outcome) : Work :=
  w.frame dst Kind.answer ([byteAt p 0] ++ field p 1 8 ++ enc1 out.code)

/-! ### ARRIVE (R130) -/

/-- The first WAITING consignment of the hatch's queue with the courier ID. -/
def matchCourier (s : State) (h : Nat) (courier : Ident) : Option Consignment :=
  s.hoc.consignments.find? (fun c => decide (c.hatch = h) && decide (c.state = .waiting) && decide (c.courier = courier))

/-- An item of the consignment has a record whose hold set is not empty. -/
def anyHeld (s : State) (c : Consignment) : Bool :=
  c.items.any (fun i => match s.mediaAt i.slot with
    | some r => r.held
    | none => false)

/-- Checks 4 to 7 of R130. -/
def arriveBars (s : State) (h : Nat) (he : HatchEntry) (c : Consignment) : Option Outcome :=
  let r := s.hatchRuntime h
  if anyHeld s c then some .hold
  else if s.fireState he.inner ≠ .quiet ∨ s.fireStateOf he.outer ≠ .quiet ∨ (s.fire he.inner).unmonitored = true then
    some .fire
  else if climateBars (s.climate he.inner).state (s.zone he.inner).takeLimit then some .climate
  else if r.position ≠ .closedLocked ∨ r.manual = true then some .hatch
  else none

/-- A refused ARRIVE: ANSWER and ARRIVE_REFUSED notice (R127, R130). -/
def refuseArrive (w : Work) (h dst : Nat) (courier : Ident) (number : Nat) (out : Outcome) : Work :=
  let hd : HandoverHead :=
    { hatch := h, event := HandoverEvent.arriveRefused, number := number, direction := 0, courier := courier
      before := 0, after := 0, abort := none, endCause := none, itemCount := 0, refusal := out.code }
  (w.answerStep dst .arrive number out).notice (hd.frames w.s.now [])

/-- A granted ARRIVE. -/
def grantArrive (w : Work) (dst : Nat) (c : Consignment) : Work :=
  let w1 := w.answerStep dst .arrive c.number .granted
  match c.direction with
  | .inbound =>
    (w1.startStep c.hatch (w1.s.hatch c.hatch).acceptTimeout false false).enter { c with state := .awaitCase } c.state
  | .outbound => w1.runGate c

/-- ARRIVE is served (R130). -/
def serveArrive (w : Work) (h : Nat) (he : HatchEntry) (dst : Nat) (p : List Byte) : Work :=
  let courier := field p 0 8
  if w.s.mga.partState = .autonomous then w.refuseArrive h dst courier 0 .supervision
  else if (w.s.activeOn h).isSome then w.refuseArrive h dst courier 0 .busy
  else match matchCourier w.s h courier with
    | none => w.refuseArrive h dst courier 0 .noConsignment
    | some c =>
      match arriveBars w.s h he c with
      | some out => w.refuseArrive h dst courier c.number out
      | none => w.grantArrive dst c

/-! ### CASE, ACCEPT, CONFIRM, DONE (R132, R136, R141) -/

/-- The case figures of a payload, clamped (R132). -/
def caseFiguresOf (p : List Byte) : CaseFigures := ⟨clampT (signed2 p 2), clampRh (nat2 p 4), nat2 p 6⟩

/-- CASE is served (R132). -/
def serveCase (w : Work) (h : Nat) (dst : Nat) (p : List Byte) : Work :=
  match w.s.activeOn h with
  | none => w.answerStep dst .caseFigures 0 .noConsignment
  | some c =>
    if c.direction = .outbound then w.answerStep dst .caseFigures c.number .notExpected
    else
      let w1 := w.answerStep dst .caseFigures c.number .recorded
      let c1 : Consignment := { c with caseTemp := some (clampT (signed2 p 0)) }
      match c.state with
      | .awaitCase => w1.runGate { c1 with caseFigures := some (caseFiguresOf p) }
      | _ => w1.retryGate c1

/-- The consignment beyond WAITING on the hatch, where its number is the frame's. -/
def named (w : Work) (h : Nat) (number : Nat) : Option Consignment :=
  (w.s.activeOn h).filter (fun c => decide (c.number = number))

/-- ACCEPT or CONFIRM is served (R136): `mark` sets the flag, and a repeated one tests the unlock again (log 43). -/
def serveFlag (w : Work) (h dst : Nat) (k : StepKind) (p : List Byte) (mark : Consignment → Consignment) : Work :=
  match w.named h (nat2 p 0) with
  | none => w.answerStep dst k 0 .noConsignment
  | some c =>
    if c.state = .offered then
      ((w.answerStep dst k c.number .recorded).mapState (fun s => s.setConsignment (mark c))).testUnlock (mark c)
    else w.answerStep dst k c.number .notExpected

/-- DONE is served (R141). -/
def serveDone (w : Work) (h dst : Nat) (p : List Byte) : Work :=
  match w.named h (nat2 p 0) with
  | none => w.answerStep dst .done 0 .noConsignment
  | some c =>
    if c.state = .transfer then (w.answerStep dst .done c.number .recorded).endTransfer c .done
    else w.answerStep dst .done c.number .notExpected

/-! ### Item scans (R139, R140) -/

/-- The item operation of a passed item (R140). -/
def passOp (w : Work) (c : Consignment) (i : Item) : ItemOp :=
  match c.direction with
  | .outbound => .outboundPass
  | .inbound =>
    let cls := match w.s.mediaAt i.slot with
      | some r => w.s.classEntry r.cls
      | none => .zero
    let hold := match c.frozen with
      | some f => acclimatizationHold f cls
      | none => cls.baseHold
    .inboundPass (w.s.hatch c.hatch).inner (minutesAfter w.s.now hold)

/-- An item is passed: its operation, the step timer's trigger, the ANSWER and the ITEM notice; the last one ends the
transfer (R139, R141). -/
def passItem (w : Work) (dst : Nat) (p : List Byte) (c : Consignment) (i : Item) : Work :=
  let c1 : Consignment :=
    { c with items := c.items.map (fun j => if j.id = i.id then { j with status := .passed } else j) }
  let w1 := w.mapState (fun s => ((s.itemOp i.slot (w.passOp c i)).setConsignment c1).setStepTimer c.hatch
    (s.stepTimer c.hatch).trigger)
  let w2 := w1.answerScan dst p .passed
  let w3 := w2.notice (w2.s.handoverNotice c1 HandoverEvent.item c.state.code c.state.code)
  if c1.items.any (fun j => decide (j.status = .pending)) then w3 else w3.enterClosing c1 .allPassed

/-- An item scan is served (R139). -/
def serveItem (w : Work) (h dst : Nat) (d : Direction) (p : List Byte) : Work :=
  match w.s.activeOn h with
  | none => w.answerScan dst p .noConsignment
  | some c =>
    if c.direction ≠ d then w.answerScan dst p .wrongStation
    else if c.state ≠ .transfer then w.answerScan dst p .notExpected
    else match c.items.find? (fun i => decide (i.id = field p 1 8)) with
      | none => w.answerScan dst p .notInConsignment
      | some i => if i.status = .pending then w.passItem dst p c i else w.answerScan dst p .duplicate

end Work

/-- The identifier at the start of a payload field is well formed. -/
def identFieldOk (p : List Byte) (i : Nat) : Bool := (field p i 8).all identChar

namespace State

/-- The answers of R128 in order around the service of a frame: `sender` says whether the sending station is the one
that sends this frame at the hatch, `formOk` whether the payload is of its layout, `reply` answers. -/
def hatchFrame (s : State) (e : StationEntry) (formOk : Bool) (sender : Nat → HatchEntry → Bool)
    (reply : Work → Outcome → Work) (serve : Work → Nat → HatchEntry → Work) : State :=
  match s.hatchByStation e.addr with
  | none => (reply s.begin .notAtHatch).finish
  | some (h, he) =>
    if !formOk then (reply s.begin .malformed).finish
    else if !sender h he then (reply s.begin .wrongStation).finish
    else (serve s.begin h he).finish

/-- The sending station is the courier terminal of the hatch. -/
def fromTerminal (e : StationEntry) (_h : Nat) (he : HatchEntry) : Bool := decide (he.terminal = e.addr)
/-- The sending station is the witness reader of the hatch. -/
def fromWitness (e : StationEntry) (_h : Nat) (he : HatchEntry) : Bool := decide (he.witness = e.addr)

/-- The station that sends DONE: tested against the direction of the consignment beyond WAITING, if any (R128). -/
def fromDoneStation (s : State) (e : StationEntry) (h : Nat) (he : HatchEntry) : Bool :=
  match s.activeOn h with
  | none => true
  | some c => match c.direction with
    | .outbound => fromTerminal e h he
    | .inbound => fromWitness e h he

def takeArrive (s : State) (e : StationEntry) (p : List Byte) : State :=
  s.hatchFrame e (decide (p.length = 8) && identFieldOk p 0) (fromTerminal e)
    (fun w out => w.answerStep e.addr .arrive 0 out) (fun w h he => w.serveArrive h he e.addr p)

def takeCase (s : State) (e : StationEntry) (p : List Byte) : State :=
  s.hatchFrame e (decide (p.length = 8)) (fromTerminal e)
    (fun w out => w.answerStep e.addr .caseFigures 0 out) (fun w h _ => w.serveCase h e.addr p)

def takeAccept (s : State) (e : StationEntry) (p : List Byte) : State :=
  s.hatchFrame e (decide (p.length = 2)) (fromTerminal e)
    (fun w out => w.answerStep e.addr .accept 0 out)
    (fun w h _ => w.serveFlag h e.addr .accept p (fun c => { c with acceptReceived := true }))

def takeConfirm (s : State) (e : StationEntry) (p : List Byte) : State :=
  s.hatchFrame e (decide (p.length = 2)) (fromWitness e)
    (fun w out => w.answerStep e.addr .confirm 0 out)
    (fun w h _ => w.serveFlag h e.addr .confirm p (fun c => { c with confirmReceived := true }))

def takeDone (s : State) (e : StationEntry) (p : List Byte) : State :=
  s.hatchFrame e (decide (p.length = 2)) (s.fromDoneStation e)
    (fun w out => w.answerStep e.addr .done 0 out) (fun w h _ => w.serveDone h e.addr p)

def takeScanHandover (s : State) (e : StationEntry) (p : List Byte) : State :=
  s.hatchFrame e (decide (p.length = 9) && identFieldOk p 1) (fromTerminal e)
    (fun w out => w.answerScan e.addr p out) (fun w h _ => w.serveItem h e.addr .outbound p)

def takeScanReceive (s : State) (e : StationEntry) (p : List Byte) : State :=
  s.hatchFrame e (decide (p.length = 9) && identFieldOk p 1) (fromWitness e)
    (fun w out => w.answerScan e.addr p out) (fun w h _ => w.serveItem h e.addr .inbound p)

/-! ### Zone reports (R131) -/

end State

/-- A zone report against the consignment beyond WAITING of one hatch that has the zone as inner or outer zone. -/
def Work.zoneReportOn (report : ZoneReport) (w : Work) (p : Nat × HatchEntry) : Work :=
  match w.s.activeOn p.1 with
  | none => w
  | some c =>
    match report with
    | .evaluated => w.retryGate c
    | .fireChanged .alarm =>
      if c.state = .aborting then w.setRuntime p.1 (fun r => { r with urgent := true }) else w.abort c .fire
    | .fireChanged _ => w.testUnlock c
    | .unmonitoredChanged _ => w

/-- The Handover Controller takes a zone report (R131; hatches in index order, log 17). -/
def State.takeZoneReport (s : State) (z : Nat) (report : ZoneReport) : State :=
  if s.active then
    ((s.hatchesInUse.filter (fun p => decide (p.2.inner = z) || decide (p.2.outer = some z))).foldl
      (Work.zoneReportOn report) s.begin).finish
  else s

/-! ### Timer expiries (R146) -/

/-- A step timer expiry by consignment state. -/
def Work.stepExpired (w : Work) (h : Nat) : Work :=
  match w.s.activeOn h with
  | none => w
  | some c =>
    match c.state with
    | .waiting => w
    | .awaitCase | .offered | .unlocking => w.abort c .timeout
    | .equalizing => w.abort c .condensation
    | .transfer => w.endTransfer c .transferTimeout
    | .closing =>
      let w1 := w.alert .hatchOpenTooLong h
      if (w.s.hatchRuntime h).position = .closedUnlocked then w1.lock h false else w1
    | .aborting =>
      let w1 := w.alert .hatchOpenTooLong h
      if (w.s.hatchRuntime h).position = .closedUnlocked then w1.lock h (w.s.hatchRuntime h).urgent else w1

/-- A dwell timer expiry by consignment state. -/
def Work.dwellExpired (w : Work) (h : Nat) : Work :=
  match w.s.activeOn h with
  | none => w
  | some c =>
    match c.state with
    | .offered => (w.setRuntime h (fun r => { r with dwellDone := true })).testUnlock c
    | .closing =>
      if (w.s.hatch h).mode = .paced ∧ (w.s.hatchRuntime h).position = .closedUnlocked then w.lock h false else w
    | _ => w

def State.stepTimerExpired (h : Nat) (s : State) : State :=
  ((s.setStepTimer h (s.stepTimer h).acknowledge).begin.stepExpired h).finish

def State.dwellTimerExpired (h : Nat) (s : State) : State :=
  ((s.setDwellTimer h (s.dwellTimer h).acknowledge).begin.dwellExpired h).finish

/-! ### Consignment life (R126) -/

/-- A WAITING consignment whose hatch's consignment life has run out. -/
def State.lifeOver (s : State) (c : Consignment) : Bool :=
  let life := (s.hatch c.hatch).life
  decide (c.state = .waiting) && decide (life ≠ 0) && decide (life ≤ (s.now - c.created).toNat)

/-- A WAITING consignment is removed, its items MISSING and reverted (R125, R126). -/
def Work.dropWaiting (w : Work) (c : Consignment) (o : HandoverEnd) : Work :=
  (w.mapState (fun s => s.missPending c (revertOp c.direction))).remove (missItems c) o

/-- The minute tick at the Handover Controller (R126). -/
def State.handoverMinute (s : State) : State :=
  if s.active then
    ((s.hoc.consignments.filter s.lifeOver).foldl (fun w c => w.dropWaiting c .expired) s.begin).finish
  else s

/-! ### ACTIVATE and DEACTIVATE (R122, R34) -/

/-- Every hatch runtime record starts again, its two timers stopped. -/
def State.restartHatches (s : State) : State :=
  let s1 : State := { s with hoc := { s.hoc with runtime := [] } }
  (List.range Config.hatchCount).foldl (fun s h =>
    (s.setStepTimer h (s.stepTimer h).stop).setDwellTimer h (s.dwellTimer h).stop) s1

/-! ### CONSIGN and CONSIGN CANCEL (R124, R125) -/

/-- The answer to an item that fails a check of CONSIGN. -/
inductive ItemRefusal where
  | notFound (position : Nat)
  | duplicateItem (position : Nat)
  | wrongState (position : Nat) (state : Nat)
  | held (position : Nat)

/-- The item checks of R124 in list order, positions from 1 (log 15): the slots, or the first failure. -/
def State.consignItems (s : State) (d : Direction) : Nat → List Ident → List Ident → Except ItemRefusal (List Item)
  | _, _, [] => .ok []
  | n, seen, id :: rest =>
    match s.mediaById id with
    | none => .error (.notFound n)
    | some (slot, r) =>
      if id ∈ seen then .error (.duplicateItem n)
      else if d = .outbound ∧ r.custody ≠ .shelved then .error (.wrongState n r.custody.code)
      else if d = .outbound ∧ r.held = true then .error (.held n)
      else if d = .inbound ∧ r.custody ≠ .out then .error (.wrongState n r.custody.code)
      else match s.consignItems d (n + 1) (id :: seen) rest with
        | .ok items => .ok (⟨id, slot, .pending⟩ :: items)
        | .error e => .error e

/-- The operation CONSIGN asks for each item. -/
def consignOp (d : Direction) (number : Nat) : ItemOp :=
  match d with
  | .outbound => .outboundConsign number
  | .inbound => .inboundConsign number

namespace State

/-- All checks of CONSIGN have passed (R124). -/
def book (s : State) (number : Nat) (d : Direction) (h : Nat) (courier : Ident) (items : List Item) : State :=
  (items.foldl (fun s i => s.itemOp i.slot (consignOp d number)) s).addConsignment
    ⟨number, d, h, courier, s.now, .waiting, items, false, false, none, none, none, none, none⟩

/-- CONSIGN (R124). The item position in a refusal has one byte (log 50). -/
def consignRequest (s : State) (tag : Byte) (number direction h : Nat) (courier : Ident) (ids : List Ident) : State :=
  match Direction.ofCode direction, identOk courier && ids.all identOk with
  | some d, true =>
    if Config.consignmentCount ≤ s.hoc.consignments.length then s.reply Req.consign tag .full []
    else if (s.consignment number).isSome then s.replyRefused Req.consign tag .duplicate []
    else if number = 0 ∨ ids = [] ∨ 24 < ids.length ∨ 3 < h then s.reply Req.consign tag .range []
    else if (s.hatch h).unit = 0 then s.replyRefused Req.consign tag .noHatch []
    else match s.consignItems d 1 [] ids with
      | .error (.notFound n) => s.reply Req.consign tag .notFound (enc1 n)
      | .error (.duplicateItem n) => s.replyRefused Req.consign tag .duplicateItem (enc1 n)
      | .error (.wrongState n st) => s.replyRefused Req.consign tag .state (enc1 n ++ enc1 st)
      | .error (.held n) => s.replyRefused Req.consign tag .hold (enc1 n)
      | .ok items => (s.book number d h courier items).reply Req.consign tag .done []
  | _, _ => s.reply Req.consign tag .malformed []

/-- CONSIGN CANCEL (R125). -/
def consignCancelRequest (s : State) (tag : Byte) (number : Nat) : State :=
  match s.consignment number with
  | none => s.reply Req.consignCancel tag .notFound []
  | some c =>
    match c.state with
    | .waiting =>
      ((s.begin.dropWaiting c .cancelled).finish).reply Req.consignCancel tag .done (enc1 HandoverEnd.cancelled.code)
    | .aborting =>
      ((s.begin.remove c .aborted).finish).reply Req.consignCancel tag .done (enc1 HandoverEnd.aborted.code)
    | _ =>
      ((s.begin.abort c .cancelled).finish).reply Req.consignCancel tag .done (enc1 ConsignState.aborting.code)

end State

/-! ### Commands -/

/-- POSITION (R122). A report of a unit that belongs to no in-use hatch is not acted on. -/
def execPosition (entry : Nat) (payload : List Byte) (s : State) : Host.Outcome State Fault Refusal :=
  .next (s.take (.position entry payload) entry (fun e => decide (e.kind = .hatchUnit)) (fun s =>
    match s.hatchByUnit (s.station entry).addr with
    | some (h, he) => s.reportPosition h he (positionOfPayload payload)
    | none => s))

/-- ARRIVE (R128, R130). -/
def execArrive (entry : Nat) (payload : List Byte) (s : State) : Host.Outcome State Fault Refusal :=
  .next (s.take (.arrive entry payload) entry StationEntry.isHatchStation (fun s => s.takeArrive (s.station entry) payload))

/-- CASE (R128, R132). -/
def execCaseReport (entry : Nat) (payload : List Byte) (s : State) : Host.Outcome State Fault Refusal :=
  .next (s.take (.caseReport entry payload) entry StationEntry.isHatchStation (fun s =>
    s.takeCase (s.station entry) payload))

/-- ACCEPT (R128, R136). -/
def execAccept (entry : Nat) (payload : List Byte) (s : State) : Host.Outcome State Fault Refusal :=
  .next (s.take (.accept entry payload) entry StationEntry.isHatchStation (fun s => s.takeAccept (s.station entry) payload))

/-- CONFIRM (R128, R136). -/
def execConfirm (entry : Nat) (payload : List Byte) (s : State) : Host.Outcome State Fault Refusal :=
  .next (s.take (.confirm entry payload) entry StationEntry.isHatchStation (fun s =>
    s.takeConfirm (s.station entry) payload))

/-- SCAN HANDOVER (R128, R139). -/
def execScanHandover (entry : Nat) (payload : List Byte) (s : State) : Host.Outcome State Fault Refusal :=
  .next (s.take (.scanHandover entry payload) entry
    (StationEntry.scansAs entry payload (.scanHandover entry payload)) (fun s =>
    s.takeScanHandover (s.station entry) payload))

/-- SCAN RECEIVE (R128, R139). -/
def execScanReceive (entry : Nat) (payload : List Byte) (s : State) : Host.Outcome State Fault Refusal :=
  .next (s.take (.scanReceive entry payload) entry
    (StationEntry.scansAs entry payload (.scanReceive entry payload)) (fun s => s.takeScanReceive (s.station entry) payload))

/-- DONE (R128, R141). -/
def execDoneStep (entry : Nat) (payload : List Byte) (s : State) : Host.Outcome State Fault Refusal :=
  .next (s.take (.doneStep entry payload) entry StationEntry.isHatchStation (fun s => s.takeDone (s.station entry) payload))

/-- A zone report to the Handover Controller (R131). -/
def execZoneReport (zone : Nat) (report : ZoneReport) (s : State) : Host.Outcome State Fault Refusal :=
  .next (s.takeEvent (.zoneReport zone report) (fun s => s.takeZoneReport zone report))

/-- An expiry of a hatch's step timer (R146). -/
def execStepTimerExpiry (hatch : Nat) (s : State) : Host.Outcome State Fault Refusal :=
  .next (s.takeEvent (.stepTimerExpiry hatch) (State.stepTimerExpired hatch))

/-- An expiry of a hatch's dwell timer (R146). -/
def execDwellTimerExpiry (hatch : Nat) (s : State) : Host.Outcome State Fault Refusal :=
  .next (s.takeEvent (.dwellTimerExpiry hatch) (State.dwellTimerExpired hatch))

def execConsign (tag : Byte) (number direction hatch : Nat) (courier : Ident) (items : List Ident) (s : State) :
    Host.Outcome State Fault Refusal :=
  .next (s.serve (.consign tag number direction hatch courier items) Req.consign tag
    (fun s => s.consignRequest tag number direction hatch courier items))

def execConsignCancel (tag : Byte) (number : Nat) (s : State) : Host.Outcome State Fault Refusal :=
  .next (s.serve (.consignCancel tag number) Req.consignCancel tag (fun s => s.consignCancelRequest tag number))

end Sys2Proof.Machine
end

