-- ==== Sys2Proof/Machine/Ports.lean ====
section
/-!
DEFINITION. The Site Link Port, the Field Segment Port and the classification of frames (R3 to R12, R17, R22 to R29):
bytes in, transmissions out, the response window and the missed count.
-/
namespace Sys2Proof.Machine

namespace State

/-! ### The site link (R3, R4, R29) -/

/-- A site frame that passed its tests is classified (R29). -/
def classifySite (s : State) (f : Frame) : State :=
  if f.dst = s.mga.live.ownAddress then
    if f.kind = Kind.request then s.hand (readRequest f.payload) else s.frameError .site
  else if s.active then
    match s.gateTest f with
    | some why => s.offerBlocked f why 0
    | none => s.offerOrdinary ⟨f, .site⟩
  else s.offerOrdinary ⟨f, .site⟩

/-- A complete frame of the site link is tested (R3, R4). -/
def siteFrameDone (s : State) (bytes : List Byte) : State :=
  match readFrame bytes with
  | none => s.frameError .site
  | some f => if f.src = s.mga.live.siteAddress then s.classifySite f else s.frameError .site

/-- The frames that the held bytes complete, one after another; the rest stays a partial frame. -/
def siteAssemble : Nat → State → State
  | 0, s => s
  | fuel + 1, s =>
    match completeLength s.slp.rx with
    | none => s
    | some n =>
      siteAssemble fuel
        (siteFrameDone { s with slp := { s.slp with rx := s.slp.rx.drop n } } (s.slp.rx.take n))

/-- Bytes arrive on the site link (R3). -/
def siteBytes (s : State) (bytes : List Byte) : State :=
  siteAssemble (s.slp.rx.length + bytes.length) { s with slp := { s.slp with rx := s.slp.rx ++ bytes } }

/-! ### Missed responses and SILENT (R12, R26) -/

/-- The owner of a station is told that its SILENT mark is set (R26). -/
def tellSilent (s : State) (e : StationEntry) : State :=
  match e.kind with
  | .probe => s.probeSilent e
  | .fireInput => s.setStage e .silent
  | .hatchUnit => s.hatchSilent e
  | .reader | .courierTerminal | .actuator | .other => s

/-- The owner of a station is told that its SILENT mark is cleared (R26). -/
def tellReturned (s : State) (e : StationEntry) : State :=
  match e.kind with
  | .probe => s.probeReturned e
  | .fireInput => s.setStage e .noReport
  | .hatchUnit => s.hatchReturned e
  | .reader | .courierTerminal | .actuator | .other => s

/-- The outcome of the window is counted against a station: the polled entry still stands (R10; log 7). -/
def counts (s : State) (index addr : Nat) (rewritten : Bool) : Bool :=
  !rewritten && decide ((s.station index).addr = addr)

/-- A missed response (R12). -/
def missedResponse (s : State) (index addr : Nat) (rewritten : Bool) : State :=
  if s.counts index addr rewritten then
    let r := s.stationRuntime index
    if r.missed + 1 < 3 then s.setStationRuntime index { r with missed := r.missed + 1 }
    else
      let s1 := s.setStationRuntime index { r with missed := 3, silent := true }
      if r.silent then s1
      else
        let s2 := s1.raiseCondition .stationSilent addr
        if s2.active then s2.tellSilent (s2.station index) else s2
  else s

/-- A valid response at the polled station (R12). -/
def answeredPoll (s : State) (index addr : Nat) (rewritten : Bool) : State :=
  if s.counts index addr rewritten then
    let r := s.stationRuntime index
    let s1 := s.setStationRuntime index { r with missed := 0, silent := false }
    if r.silent then
      let s2 := s1.lower .stationSilent addr
      if s2.active then s2.tellReturned (s2.station index) else s2
    else s1
  else s

/-! ### Classifying field responses (R22 to R28) -/

/-- The consumed kinds (R23). -/
def consumedKind (k : Nat) : Bool :=
  decide (k = Kind.scan ∨ k = Kind.arrive ∨ k = Kind.caseFigures ∨ k = Kind.accept ∨ k = Kind.confirm ∨ k = Kind.done)

/-- A payload as the last forwarded payload (R20). -/
def storedOf (p : List Byte) : StoredPayload := ⟨p.length, p.take Config.lastForwardedBytes⟩

/-- A response counts as changed (R28). -/
def changedFrom (last : Option StoredPayload) (p : List Byte) : Bool :=
  match last with
  | none => true
  | some st =>
    decide (p.length ≠ st.length) || decide (Config.lastForwardedBytes < p.length)
      || decide (Config.lastForwardedBytes < st.length) || decide (p ≠ st.bytes)

/-- A response is offered under its station's policy (R27, R28). -/
def forwardByPolicy (s : State) (index : Nat) (e : StationEntry) (f : Frame) : State :=
  match e.policy with
  | .all => s.offerSite ⟨f, .forwarded⟩
  | .none => s
  | .changes =>
    let r := s.stationRuntime index
    if changedFrom r.lastForwarded f.payload then
      if s.siteFull then s.offerSite ⟨f, .forwarded⟩
      else (s.setStationRuntime index { r with lastForwarded := some (storedOf f.payload) }).offerSite ⟨f, .forwarded⟩
    else s

/-- The command that takes a response, by station kind and frame kind (R24). -/
def dispatchCommand (e : StationEntry) (index : Nat) (f : Frame) : Option Instr :=
  let p := f.payload
  if f.kind = Kind.scan then (if e.scans then some (scanCommand e index p) else none)
  else if f.kind = Kind.sample then (if e.kind = .probe then some (.sample index p) else none)
  else if f.kind = Kind.stage then (if e.kind = .fireInput then some (.stage index p) else none)
  else if f.kind = Kind.position then (if e.kind = .hatchUnit then some (.position index p) else none)
  else if !e.isHatchStation then none
  else if f.kind = Kind.arrive then some (.arrive index p)
  else if f.kind = Kind.caseFigures then some (.caseReport index p)
  else if f.kind = Kind.accept then some (.accept index p)
  else if f.kind = Kind.confirm then some (.confirm index p)
  else if f.kind = Kind.done then some (.doneStep index p)
  else none

/-- Step 2 of R23: the response is handed to its job block. -/
def dispatch (s : State) (e : StationEntry) (index : Nat) (f : Frame) : State :=
  match dispatchCommand e index f with
  | some c => s.hand c
  | none => s

/-- A valid response is classified (R22, R23). -/
def classifyResponse (s : State) (index : Nat) (f : Frame) : State :=
  if f.kind = Kind.idle then s
  else if s.active then
    let e := s.station index
    if e.addr = 0 then s
    else
      let s1 := if consumedKind f.kind then s else s.forwardByPolicy index e f
      s1.dispatch e index f
  else s.offerSite ⟨f, .forwarded⟩

/-! ### The field segment (R3, R9 to R11) -/

/-- A window is open. -/
def awaiting (s : State) : Bool :=
  match s.fsp.segment with
  | .awaiting _ _ _ => true
  | _ => false

/-- A complete frame that began inside the window (R10), short of the arbiter's choice. -/
def judgeResponse (s : State) (index addr : Nat) (rewritten : Bool) (bytes : List Byte) : State :=
  match readFrame bytes with
  | none => (s.frameError .field).missedResponse index addr rewritten
  | some f =>
    if f.src ≠ addr then (s.raiseEvent .unknownReplySource addr).missedResponse index addr rewritten
    else if f.kind = Kind.request then (s.raiseEvent .foreignManagement addr).missedResponse index addr rewritten
    else (s.answeredPoll index addr rewritten).classifyResponse index f

/-- A complete frame of the field segment: judged in the window, or an error out of turn (R10, R11). The frames the owners queue
in this event join before the choice (log 46). -/
def fieldFrameDone (s : State) (inWindow : Bool) (bytes : List Byte) : State :=
  match inWindow, s.fsp.segment with
  | true, .awaiting index addr rewritten => (s.judgeResponse index addr rewritten bytes).arbitrate
  | _, _ => s.frameError .field

/-- The frames that the held bytes complete, one after another. -/
def fieldAssemble : Nat → State → State
  | 0, s => s
  | fuel + 1, s =>
    match completeLength s.fsp.rx with
    | none => s
    | some n =>
      let s1 := fieldFrameDone { s with fsp := { s.fsp with rx := s.fsp.rx.drop n } } s.fsp.rxInWindow (s.fsp.rx.take n)
      fieldAssemble fuel
        { s1 with fsp := { s1.fsp with rxInWindow := !s1.fsp.rx.isEmpty && s1.awaiting } }

/-- Bytes arrive on the field segment; a frame belongs to the window in which its first byte arrived (R3, R10, R11). Bytes
given while the part is SENDING are received like any others (log 37). -/
def fieldBytes (s : State) (bytes : List Byte) : State :=
  let mark := if s.fsp.rx.isEmpty then !bytes.isEmpty && s.awaiting else s.fsp.rxInWindow
  fieldAssemble (s.fsp.rx.length + bytes.length)
    { s with fsp := { s.fsp with rx := s.fsp.rx ++ bytes, rxInWindow := mark } }

/-- The partial frame of the field segment is discarded (R3); one of the window is a missed response (R10), whose
frames join before the choice (log 46). -/
def fieldGap (s : State) : State :=
  if s.fsp.rx.isEmpty then s
  else
    let s1 : State := { s with fsp := { s.fsp with rx := [], rxInWindow := false } }
    let s2 := s1.frameError .field
    match s.fsp.rxInWindow, s.fsp.segment with
    | true, .awaiting index addr rewritten => (s2.missedResponse index addr rewritten).arbitrate
    | _, _ => s2

/-- The partial frame of the site link is discarded (R3). -/
def siteGap (s : State) : State :=
  if s.slp.rx.isEmpty then s else State.frameError { s with slp := { s.slp with rx := [] } } .site

/-- A transmission ends (R9). -/
def transmissionEnd (s : State) : State :=
  match s.fsp.segment with
  | .sending (.poll index f) => s.setSegment (.awaiting index f.dst false)
  | .sending (.urgent _) => s.arbitrate
  | .sending (.ordinary _) => s.arbitrate
  | .idle | .awaiting _ _ _ => s

/-- 15 ms pass and no byte of a response has arrived (R10); bytes of a frame that began out of turn are none (log 38). Frames
that an owner queues on a SILENT change of this event join before the choice (log 46). -/
def windowExpiry (s : State) : State :=
  match s.fsp.segment with
  | .awaiting index addr rewritten =>
    if s.fsp.rxInWindow then s else (s.missedResponse index addr rewritten).arbitrate
  | .idle | .sending _ => s

/-! ### The site transmitter and reset (R5, R17, R179, R183) -/

/-- A reset: the commissioning store is kept, and so are the commands that wait outside (log 28). -/
def resetPart (s : State) : State := State.afterReset s.mga.stored s.mga.burns s.pending

/-- The last check byte of a site frame has been sent; that of the RESTART REPLY resets the part (R5, R179). -/
def siteTransmitted (s : State) : State :=
  match s.slp.tx with
  | none => s
  | some f =>
    if f.tag = .restartReply then s.resetPart else siteStart { s with slp := { s.slp with tx := none } }

end State

/-- RESET (R183 and each chapter's value for a reset). -/
def execReset (s : State) : Host.Outcome State Fault Refusal := .next s.resetPart

/-- BYTE_GAP_TIMEOUT (R3, R10). -/
def execByteGapTimeout (link : Link) (s : State) : Host.Outcome State Fault Refusal :=
  .next (match link with
    | .site => s.siteGap
    | .field => s.fieldGap)

/-- SITE_FRAME_RECEIVED (R3, R4, R29). -/
def execSiteFrameReceived (bytes : List Byte) (s : State) : Host.Outcome State Fault Refusal := .next (s.siteBytes bytes)

/-- SITE_TRANSMIT_COMPLETE (R5, R179). -/
def execSiteTransmitComplete (s : State) : Host.Outcome State Fault Refusal := .next s.siteTransmitted

/-- FIELD_TRANSMISSION_END (R9, R15). -/
def execFieldTransmissionEnd (s : State) : Host.Outcome State Fault Refusal := .next s.transmissionEnd

/-- RESPONSE_WINDOW_EXPIRY (R10, R12). -/
def execResponseWindowExpiry (s : State) : Host.Outcome State Fault Refusal := .next s.windowExpiry

/-- FIELD_RESPONSE (R10, R12, R22 to R28): whether the bytes fall in the window is told by the segment state. -/
def execFieldResponse (bytes : List Byte) (s : State) : Host.Outcome State Fault Refusal := .next (s.fieldBytes bytes)

/-- FIELD_FRAME_OUT_OF_TURN (R11): the same bytes while no window is open. -/
def execFieldFrameOutOfTurn (bytes : List Byte) (s : State) : Host.Outcome State Fault Refusal :=
  .next (s.fieldBytes bytes)

end Sys2Proof.Machine
end

