-- ==== Sys2Proof/Machine/Management.lean ====
section
/-!
DEFINITION. The Management Agent (R147 to R149, R156, R164, R165, R168 to R183): malformed requests, IDENT, the table
window, ACTIVATE and its check, DEACTIVATE, RESTART, alert requests, supervision and the commissioning store.
-/
namespace Sys2Proof.Machine

/-! ### Consistency tests (R21, R52, R77, R121, R177) -/

/-- A kind whose kind index names an entry of a table. -/
def StationKind.indexed : StationKind → Bool
  | .probe | .fireInput | .actuator => true
  | .reader | .hatchUnit | .courierTerminal | .other => false

/-- R52. -/
def Profile.consistent (p : Profile) : Bool :=
  decide (p.critLow < p.low) && decide (p.low < p.high) && decide (p.high < p.critHigh)
    && decide (2 * p.margin ≤ p.high - p.low) && decide (p.tLow < p.tHigh)

/-- No member twice. -/
def distinct : List Nat → Bool
  | [] => true
  | z :: zs => decide (z ∉ zs) && distinct zs

/-- R77. -/
def ZoneEntry.consistent (e : ZoneEntry) (z : Nat) : Bool := decide (z ∉ e.coupledList) && distinct e.coupledList

namespace State

/-- R21 for one entry against the non-empty entries of lower index. -/
def stationConsistent (s : State) (lower : List (Nat × StationEntry)) (e : StationEntry) : Bool :=
  decide (e.addr ≠ s.mga.live.ownAddress) && decide (e.addr ≠ s.mga.live.siteAddress)
    && lower.all (fun p => decide (p.2.addr ≠ e.addr))
    && (!e.kind.indexed || e.zone.isSome)
    && (!e.kind.indexed || lower.all (fun p => decide (p.2.kind ≠ e.kind ∨ p.2.index ≠ e.index)))
    && (decide (e.kind ≠ .actuator) || decide (s.actuator e.index ≠ .unassigned))
    && (decide (e.kind ≠ .reader) || (decide (e.role = .door) && e.zone.isSome) || decide (e.role = .witness))

/-- A station entry with an address and a property exists. -/
def hasStation (s : State) (a : Nat) (f : StationEntry → Bool) : Bool :=
  s.stationList.any (fun p => decide (p.2.addr = a) && f p.2)

/-- The three addresses of a hatch entry. -/
def hatchAddresses (e : HatchEntry) : List Nat := [e.unit, e.terminal, e.witness]

/-- R121 for one entry in use against those of lower index. -/
def hatchConsistent (s : State) (lower : List (Nat × HatchEntry)) (e : HatchEntry) : Bool :=
  s.hasStation e.unit (fun t => decide (t.kind = .hatchUnit))
    && s.hasStation e.terminal (fun t => decide (t.kind = .courierTerminal))
    && s.hasStation e.witness (fun t => decide (t.kind = .reader) && decide (t.role = .witness))
    && lower.all (fun p => (hatchAddresses e).all (fun a => decide (a ∉ hatchAddresses p.2)))
    && lower.all (fun p => decide (p.2.inner ≠ e.inner))
    && decide (e.outer ≠ some e.inner)

/-- The first entry that fails a test against the entries before it. -/
def firstFailing {α : Type} (ok : List (Nat × α) → α → Bool) : List (Nat × α) → List (Nat × α) → Option Nat
  | _, [] => none
  | lower, p :: rest => if ok lower p.2 then firstFailing ok (lower ++ [p]) rest else some p.1

/-- The first failure of the consistency tests in the order of R177: table and entry. -/
def inconsistency (s : State) : Option (TableId × Nat) :=
  match firstFailing s.stationConsistent [] s.stationList with
  | some i => some (.station, i)
  | none =>
    match (List.range 4).find? (fun i => !(s.profile i).consistent) with
    | some i => some (.profile, i)
    | none =>
      match zoneNumbers.find? (fun z => !(s.zone z).consistent z) with
      | some z => some (.zone, z)
      | none =>
        match firstFailing s.hatchConsistent [] s.hatchesInUse with
        | some h => some (.hatch, h)
        | none =>
          match s.hoc.consignments.find? (fun c => decide ((s.hatch c.hatch).unit = 0)) with
          | some c => some (.hatch, c.hatch)
          | none => none

def setMga (s : State) (m : Mga) : State := { s with mga := m }

/-! ### Supervision (R147, R148, R156) -/

/-- The supervision timer is started with the live SUPERVISION_TIMEOUT if that is nonzero, and stopped if it is 0 (R147). -/
def startSupervision (s : State) : State :=
  if s.mga.live.supervisionTimeout = 0 then s.setSupervision s.tmb.supervision.stop
  else s.setSupervision (s.tmb.supervision.start s.mga.live.supervisionTimeout false true)

/-- An expiry of the supervision timer (R148), taken whatever the live SUPERVISION_TIMEOUT has become (log 44). At the entry
to ACTIVE_AUTONOMOUS a timer that a REQUEST triggered since the handing is stopped, and stays stopped there (R147). -/
def supervisionExpired (s : State) : State :=
  if s.mga.partState = .supervised then
    let s1 := s.setSupervision s.tmb.supervision.stop
    ((s1.setMga { s1.mga with partState := .autonomous }).raiseCondition .supervisionLost Link.site.source).beginFallback
  else s.setSupervision s.tmb.supervision.acknowledge

/-- RESUME (R156). -/
def resumeRequest (s : State) (tag : Byte) : State :=
  if s.mga.partState = .autonomous then
    let s1 := (s.setMga { s.mga with partState := .supervised }).lower .supervisionLost Link.site.source
    (s1.startSupervision.endFallback).reply Req.resume tag .done (enc1 PartState.supervised.code)
  else s.replyRefused Req.resume tag .notAutonomous []

/-! ### Identity (R170) -/

def identRequest (s : State) (tag : Byte) : State :=
  s.reply Req.ident tag .done (enc2 Config.vendorCode ++ enc2 Config.partCode ++ enc1 Config.revisionCode
    ++ enc2 s.mga.live.vaultId ++ enc2 s.mga.live.ownAddress)

/-! ### The table window (R172 to R174) -/

/-- TABLE OPEN (R172). -/
def tableOpenRequest (s : State) (tag : Byte) (table start : Nat) : State :=
  match TableId.ofCode table with
  | none => s.reply Req.tableOpen tag .malformed []
  | some t =>
    if start < t.size then
      (s.setMga { s.mga with window := some (t, start) }).reply Req.tableOpen tag .done (enc1 t.code ++ enc2 start)
    else s.reply Req.tableOpen tag .range []

/-- A station entry is stored: its runtime restarts, a window open on it counts against no station, and a first entry
lets the arbiter choose (R10, R12, R16, R20). -/
def storeStation (s : State) (i : Nat) (e : StationEntry) : State :=
  let s1 := if (s.stationRuntime i).silent then s.lower .stationSilent (s.station i).addr else s
  let s2 := s1.setStationRuntime i .fresh
  let s3 := match s2.fsp.segment with
    | .awaiting j addr _ => if j = i then s2.setSegment (.awaiting j addr true) else s2
    | .idle | .sending _ => s2
  let s4 := s3.setStation i e
  if s.stationList = [] ∧ e.addr ≠ 0 then s4.arbitrateIfIdle else s4

/-- One entry image that TABLE WRITE accepts is stored in its table (R173, R186). -/
def storeEntry (s : State) (t : TableId) (i : Nat) (p : List Byte) : State :=
  match t with
  | .station => (match StationEntry.ofImage p with
    | some e => s.storeStation i e
    | none => s)
  | .profile => s.setProfile i (Profile.ofImage p)
  | .zone => (match ZoneEntry.ofImage p with
    | some e => (s.setZone i e).testExposed i
    | none => s)
  | .probe => s.setProbeCal i (ProbeCal.ofImage p)
  | .fireInput => (match InputKind.ofCode (nat1 p 0) with
    | some k => s.setInputKind i k
    | none => s)
  | .actuator => (match Function.ofCode (nat1 p 0) with
    | some f => s.setActuator i f
    | none => s)
  | .hatch => (match HatchEntry.ofImage p with
    | some e => s.setHatch i e
    | none => s)
  | .cls => s.setClassEntry i (ClassEntry.ofImage p)

/-- The image of the `k`-th entry of a write. -/
def imageOf (t : TableId) (images : List Byte) (k : Nat) : List Byte := field images (k * t.imageSize) t.imageSize

/-- The entries of an accepted write, stored in order. -/
def storeEntries (s : State) (t : TableId) (pointer count : Nat) (images : List Byte) : State :=
  (List.range count).foldl (fun s k => s.storeEntry t (pointer + k) (imageOf t images k)) s

/-- TABLE WRITE (R173); its REPLY follows the ALERT notices of the stored entries (log 49), and an entry index has one byte
(log 50). -/
def tableWriteRequest (s : State) (tag : Byte) (count : Nat) (images : List Byte) : State :=
  if count = 0 then s.reply Req.tableWrite tag .malformed []
  else match s.mga.window with
    | none => s.replyRefused Req.tableWrite tag .noWindow []
    | some (t, pointer) =>
      if images.length ≠ count * t.imageSize then s.reply Req.tableWrite tag .malformed []
      else if s.active then s.replyRefused Req.tableWrite tag .notInConfig []
      else if t.size < pointer + count then s.reply Req.tableWrite tag .range []
      else match (List.range count).find? (fun k => !imageAccepted t (imageOf t images k)) with
        | some k => s.replyRefused Req.tableWrite tag .badEntry (enc1 (pointer + k))
        | none =>
          let s1 := s.storeEntries t pointer count images
          (s1.setMga { s1.mga with window := some (t, pointer + count) }).reply Req.tableWrite tag .done
            (enc2 (pointer + count))

/-- TABLE READ (R174, 11.4). -/
def tableReadRequest (s : State) (tag : Byte) (count : Nat) : State :=
  if count = 0 then s.reply Req.tableRead tag .malformed []
  else match s.mga.window with
    | none => s.replyRefused Req.tableRead tag .noWindow []
    | some (t, pointer) =>
      if 248 < count * t.imageSize then s.reply Req.tableRead tag .malformed []
      else if t.size < pointer + count then s.reply Req.tableRead tag .range []
      else
        (s.setMga { s.mga with window := some (t, pointer + count) }).reply Req.tableRead tag .done
          (enc1 t.code ++ enc2 (pointer + count) ++ enc1 count
            ++ (List.range count).flatMap (fun k => s.entryImage t (pointer + k)))

/-! ### Activation and deactivation (R175, R177, R178) -/

/-- ACTIVATE begins its check in CONFIG (R175). -/
def activateRequest (s : State) (tag : Byte) (expected : Nat) : State :=
  if s.active then s.replyRefused Req.activate tag .notInConfig []
  else s.setMga { s.mga with check := some ⟨tag, expected⟩ }

/-- Every station's runtime restarts; STATION_SILENT is lowered for each station that was SILENT (R12, R20). -/
def restartStations (s : State) : State :=
  let s1 := s.cgt.runtime.foldl
    (fun s' p => if p.2.silent then s'.lower .stationSilent (s.station p.1).addr else s') s
  { s1 with cgt := { s1.cgt with runtime := [] } }

/-- The owners prepare their runtime; the two that raise alerts in the order chosen (R177; log 8). -/
def activateOwners (s : State) (order : OwnerOrder) : State :=
  let s1 := s.restartStations
  let s2 := match order with
    | .climateFirst => (s1.activateClimate).activateFire
    | .climateLast => (s1.activateFire).activateClimate
  s2.restartHatches

/-- The activation check is complete and every test passes (R177). -/
def activatePart (s : State) (order : OwnerOrder) : State :=
  ((s.setMga { s.mga with partState := .supervised }).startSupervision).activateOwners order

/-- The computation of the activation check ends (R176, R177); an entry index has one byte (log 50). -/
def checkComplete (s : State) (order : OwnerOrder) : State :=
  match s.mga.check with
  | none => s
  | some run =>
    let s1 := s.setMga { s.mga with check := none }
    let sum := activationSum s1.tableBytes
    if sum ≠ run.expected then s1.replyRefused Req.activate run.tag .tableCheck (enc2 sum)
    else match s1.inconsistency with
      | some (t, i) => s1.replyRefused Req.activate run.tag .tableConsistency (enc1 t.code ++ enc1 i)
      | none =>
        (s1.activatePart order).reply Req.activate run.tag .done (enc1 PartState.supervised.code ++ enc2 sum)

/-- The first hatch, in hatch order, with a consignment beyond WAITING. -/
def busyHatch (s : State) : Option Nat := (List.range Config.hatchCount).find? (fun h => (s.activeOn h).isSome)

/-- The first zone that is not QUIET or has a coupled source. -/
def fieryZone (s : State) : Option Nat :=
  zoneNumbers.find? (fun z => decide (s.fireState z ≠ .quiet) || !(s.fire z).coupledSources.isEmpty)

/-- The owners clear their runtime at DEACTIVATE (R178). -/
def deactivateOwners (s : State) : State :=
  ((s.restartStations).deactivateClimate).deactivateFire.restartHatches

/-- DEACTIVATE (R178, R149). -/
def deactivateRequest (s : State) (tag : Byte) : State :=
  match s.mga.partState with
  | .config => s.replyRefused Req.deactivate tag .notActive []
  | .autonomous => s.replyRefused Req.deactivate tag .autonomous []
  | .supervised =>
    match s.busyHatch, s.fieryZone with
    | some h, _ => s.replyRefused Req.deactivate tag .handoverActive (enc1 h)
    | none, some z => s.replyRefused Req.deactivate tag .fireActive (enc1 z)
    | none, none =>
      let s1 := (s.setMga { s.mga with partState := .config }).setSupervision s.tmb.supervision.stop
      s1.deactivateOwners.reply Req.deactivate tag .done (enc1 PartState.config.code)

/-! ### RESTART (R179) -/

/-- RESTART: its REPLY, then the reset when it has been sent, or at once where it is dropped. -/
def restartRequest (s : State) (tag : Byte) : State :=
  if s.siteFull then s.resetPart
  else
    (s.setMga { s.mga with restartPending := true }).offerSite
      (s.replyItem .restartReply (replyPayload (byteOf Req.restart) tag .done 0 []))

/-! ### CLEAR ALERTS and SET MASK (R164, R165) -/

/-- The kinds a list of codes names, in kind order. -/
def kindsNamed (codes : List Nat) : List AlertKind := AlertKind.all.filter (fun k => decide (k.code ∈ codes))

/-- A kind that can be cleared is cleared. -/
def clearAlert (s : State) (k : AlertKind) : State :=
  let r := s.alertRec k.code
  if r.present = [] then s.setAlertRec k.code { r with latched := false, count := 0, lastSource := none } else s

/-- CLEAR ALERTS (R165). -/
def clearAlertsRequest (s : State) (tag : Byte) (codes : List Nat) : State :=
  if codes.any (fun c => decide (22 < c)) then s.reply Req.clearAlerts tag .malformed []
  else
    let still := (kindsNamed codes).filter (fun k => !(s.alertRec k.code).present.isEmpty)
    let s1 := (kindsNamed codes).foldl clearAlert s
    if still = [] then s1.reply Req.clearAlerts tag .done []
    else s1.reply Req.clearAlerts tag .stillActive (encList (still.map (fun k => enc1 k.code)))

def maskAlert (masked : Bool) (s : State) (k : AlertKind) : State :=
  s.setAlertRec k.code { s.alertRec k.code with masked := masked }

/-- SET MASK (R164). -/
def setMaskRequest (s : State) (tag : Byte) (value : Nat) (codes : List Nat) : State :=
  if codes.any (fun c => decide (22 < c)) || decide (1 < value) then s.reply Req.setMask tag .malformed []
  else match (kindsNamed codes).find? (fun k => k.unmaskable && decide (value = 1)) with
    | some k => s.replyRefused Req.setMask tag .unmaskable (enc1 k.code)
    | none =>
      let s1 := ((kindsNamed codes).foldl (maskAlert (decide (value = 1))) s).recomputeHeld
      s1.reply Req.setMask tag .done (AlertKind.all.flatMap (fun k => encBool (s1.alertRec k.code).masked))

/-! ### The commissioning store (R180 to R182) -/

/-- The item and the other address hold the same value (R181 check 5, R182 check 3). -/
def addressClash (f : Figures) (i : StoreItem) (v : Nat) : Bool :=
  match i with
  | .ownAddress => decide (v = f.siteAddress)
  | .siteAddress => decide (v = f.ownAddress)
  | .supervisionTimeout | .retryInterval | .vaultId => false

/-- STORE BURN (R181). -/
def storeBurnRequest (s : State) (tag : Byte) (item value : Nat) : State :=
  match StoreItem.ofCode item with
  | none => s.reply Req.storeBurn tag .malformed []
  | some i =>
    match i.taken value with
    | none => s.reply Req.storeBurn tag .range []
    | some v =>
      if s.mga.burn.isSome then s.reply Req.storeBurn tag .busy []
      else if 4 ≤ s.mga.burns.get i then s.reply Req.storeBurn tag .exhausted []
      else if addressClash s.mga.stored i v then s.replyRefused Req.storeBurn tag .addressClash []
      else s.setMga { s.mga with burns := s.mga.burns.set i (s.mga.burns.get i + 1), burn := some ⟨i, v, tag⟩ }

/-- The completion of a burn (R181). -/
def burnComplete (s : State) : State :=
  match s.mga.burn with
  | none => s
  | some b =>
    (s.setMga { s.mga with stored := s.mga.stored.set b.item b.value, burn := none }).reply Req.storeBurn b.tag .done
      (enc1 b.item.code ++ enc2 b.value ++ enc1 (s.mga.burns.get b.item))

/-- The station entry that holds an address a SET LIVE would give the part in an ACTIVE state (R182 check 4). -/
def liveClash (s : State) (i : StoreItem) (v : Nat) : Option Nat :=
  if s.active && decide (i = .ownAddress ∨ i = .siteAddress) then
    (s.stationList.find? (fun p => decide (p.2.addr = v))).map Prod.fst
  else none

/-- The live value changes; that of SUPERVISION_TIMEOUT starts or stops the timer in ACTIVE_SUPERVISED (R147). -/
def changeLive (s : State) (i : StoreItem) (v : Nat) : State :=
  let s1 := s.setMga { s.mga with live := s.mga.live.set i v }
  if i = .supervisionTimeout ∧ s.mga.partState = .supervised then s1.startSupervision else s1

/-- SET LIVE (R182): the REPLY is offered before the change; an entry index has one byte (log 50). -/
def setLiveRequest (s : State) (tag : Byte) (item value : Nat) : State :=
  match StoreItem.ofCode item with
  | none => s.reply Req.setLive tag .malformed []
  | some i =>
    match i.taken value with
    | none => s.reply Req.setLive tag .range []
    | some v =>
      if addressClash s.mga.live i v then s.replyRefused Req.setLive tag .addressClash []
      else match s.liveClash i v with
        | some e => s.replyRefused Req.setLive tag .addressClash (enc1 e)
        | none => (s.reply Req.setLive tag .done (enc1 i.code ++ enc2 v)).changeLive i v

/-! ### Malformed requests (R168) -/

/-- Byte `i` of a REQUEST payload as its REPLY echoes it; a missing one is a free value (log 10). -/
def echoByte (p : List Byte) (i : Nat) : Byte := p.getD i (Config.missingEcho p i)

end State

/-! ### Commands -/

/-- A REQUEST the MGA cannot read (R168). -/
def execMalformedRequest (payload : List Byte) (s : State) : Host.Outcome State Fault Refusal :=
  .next (s.serve (.malformedRequest payload) (State.echoByte payload 0).toNat (State.echoByte payload 1) (fun s =>
    s.reply (State.echoByte payload 0).toNat (State.echoByte payload 1) .malformed []))

def execIdent (tag : Byte) (s : State) : Host.Outcome State Fault Refusal :=
  .next (s.serve (.ident tag) Req.ident tag (fun s => s.identRequest tag))

def execTableOpen (tag : Byte) (table start : Nat) (s : State) : Host.Outcome State Fault Refusal :=
  .next (s.serve (.tableOpen tag table start) Req.tableOpen tag (fun s => s.tableOpenRequest tag table start))

def execTableWrite (tag : Byte) (count : Nat) (images : List Byte) (s : State) : Host.Outcome State Fault Refusal :=
  .next (s.serve (.tableWrite tag count images) Req.tableWrite tag (fun s => s.tableWriteRequest tag count images))

def execTableRead (tag : Byte) (count : Nat) (s : State) : Host.Outcome State Fault Refusal :=
  .next (s.serve (.tableRead tag count) Req.tableRead tag (fun s => s.tableReadRequest tag count))

def execActivate (tag : Byte) (expected : Nat) (s : State) : Host.Outcome State Fault Refusal :=
  .next (s.serve (.activate tag expected) Req.activate tag (fun s => s.activateRequest tag expected))

/-- The computation of the activation check ends (R177). -/
def execActivateCheckComplete (order : OwnerOrder) (s : State) : Host.Outcome State Fault Refusal :=
  .next (s.checkComplete order)

def execDeactivate (tag : Byte) (s : State) : Host.Outcome State Fault Refusal :=
  .next (s.serve (.deactivate tag) Req.deactivate tag (fun s => s.deactivateRequest tag))

def execRestart (tag : Byte) (s : State) : Host.Outcome State Fault Refusal :=
  .next (s.serve (.restart tag) Req.restart tag (fun s => s.restartRequest tag))

def execClearAlerts (tag : Byte) (kinds : List Nat) (s : State) : Host.Outcome State Fault Refusal :=
  .next (s.serve (.clearAlerts tag kinds) Req.clearAlerts tag (fun s => s.clearAlertsRequest tag kinds))

def execSetMask (tag : Byte) (value : Nat) (kinds : List Nat) (s : State) : Host.Outcome State Fault Refusal :=
  .next (s.serve (.setMask tag value kinds) Req.setMask tag (fun s => s.setMaskRequest tag value kinds))

def execResume (tag : Byte) (s : State) : Host.Outcome State Fault Refusal :=
  .next (s.serve (.resume tag) Req.resume tag (fun s => s.resumeRequest tag))

def execStoreBurn (tag : Byte) (item value : Nat) (s : State) : Host.Outcome State Fault Refusal :=
  .next (s.serve (.storeBurn tag item value) Req.storeBurn tag (fun s => s.storeBurnRequest tag item value))

/-- A burn ends (R181). -/
def execStoreBurnComplete (s : State) : Host.Outcome State Fault Refusal := .next s.burnComplete

def execSetLive (tag : Byte) (item value : Nat) (s : State) : Host.Outcome State Fault Refusal :=
  .next (s.serve (.setLive tag item value) Req.setLive tag (fun s => s.setLiveRequest tag item value))

/-- An expiry of the supervision timer (R148). -/
def execSupervisionTimerExpiry (s : State) : Host.Outcome State Fault Refusal :=
  .next (s.takeEvent .supervisionTimerExpiry State.supervisionExpired)

end Sys2Proof.Machine
end

