-- ==== Sys2Proof/Machine/Reading.lean ====
section
/-!
DEFINITION. READ (R171, R187): the results of each selector. Optional fields take a presence byte only where the
record's state does not tell their presence (R184; log 14).
-/
namespace Sys2Proof.Machine

/-- Interval timer fields (R187). -/
def Timer.image (t : Timer) : List Byte := enc2 t.load ++ enc2 t.remaining ++ encBool t.running ++ encBool t.gated

/-- The last forwarded payload (R187). -/
def lastForwardedImage : Option StoredPayload → List Byte
  | some p => 1 :: (enc1 p.length ++ field p.bytes 0 16)
  | none => 0 :: zeros 17

/-- The calibrated values of a probe, zero where absent (R47). -/
def ProbeState.image (p : ProbeState) : List Byte :=
  enc1 p.code ++ (match p with
    | .valid rh t => enc2 rh ++ encSigned2 t
    | .noSample | .fault | .silent => zeros 4)

/-- A climate record in the order of R54. -/
def ClimateRec.image (c : ClimateRec) : List Byte :=
  enc1 c.state.code ++ encOptional 6 (c.reading.map (fun r => enc2 r.rh ++ encSigned2 r.t ++ encSigned2 r.td))
    ++ enc1 c.validCount ++ enc1 c.candidate ++ enc2 c.exposure ++ encBool c.exposed ++ encBool c.humidifier
    ++ encBool c.dehumidifier

/-- A fire record in the order of R78, but for its timer. -/
def FireRec.image (f : FireRec) : List Byte :=
  enc1 f.state.code ++ encOptional 1 (f.cause.map (fun c => enc1 c.code)) ++ encZoneSet f.coupledSources
    ++ encBool f.silenced ++ encBool f.unmonitored

/-- A hatch runtime record in the order of R122, up to its queue. -/
def HatchRuntime.image (r : HatchRuntime) : List Byte :=
  enc1 r.position.code ++ encBool r.unitSilent ++ encBool r.manual ++ encBool r.moved ++ encBool r.dwellDone
    ++ encPresence 2 (r.unlockRef.map enc2) ++ encBool r.urgent

/-- A consignment record in the order of R123. In ABORTING from AWAIT_CASE the case temperature may or may not be present
(R132), so it takes a presence byte. -/
def Consignment.image (c : Consignment) : List Byte :=
  enc2 c.number ++ enc1 c.direction.code ++ enc1 c.hatch ++ field c.courier 0 8 ++ enc4 c.created ++ enc1 c.state.code
    ++ encList (c.items.map (fun i => field i.id 0 8 ++ enc2 i.slot ++ enc1 i.status.code))
    ++ encBool c.acceptReceived ++ encBool c.confirmReceived
    ++ encOptional 6 (c.caseFigures.map (fun f => encSigned2 f.meanT ++ enc2 f.meanRh ++ enc2 f.minutes))
    ++ encPresence 2 (c.caseTemp.map encSigned2)
    ++ encOptional 10 (c.frozen.map (fun f =>
        encSigned2 f.meanT ++ enc2 f.meanRh ++ enc2 f.minutes ++ encSigned2 f.innerT ++ enc2 f.innerRh))
    ++ encOptional 2 (c.abort.map (fun a => enc1 a.1.code ++ enc1 a.2.code))
    ++ encOptional 1 (c.endCause.map (fun e => enc1 e.code))

/-- A burn in progress: item and value, or none. -/
def burnImage (b : Option BurnRec) : List Byte := encPresence 3 (b.map (fun r => enc1 r.item.code ++ enc2 r.value))

/-- An alert record in the order of R158; the present sources an event kind does not have are an empty list (log 18). -/
def AlertRec.image (k : AlertKind) (r : AlertRec) : List Byte :=
  encBool r.latched ++ enc1 r.count ++ encOptional 2 (r.lastSource.map enc2) ++ encBool r.masked
    ++ encList (if k.isCondition then r.present.map enc2 else [])

namespace State

def partImage (s : State) : List Byte :=
  enc1 s.mga.partState.code ++ enc4 s.tmb.minuteClock ++ enc1 s.tmb.secondCount ++ s.tmb.supervision.image
    ++ s.tmb.retry.image ++ encBool s.tmb.retry.pending ++ encBool s.mga.check.isSome ++ encBool s.mga.restartPending
    ++ (match s.mga.window with
        | some (t, p) => enc1 t.code ++ enc2 p
        | none => enc1 0xFF ++ enc2 0)
    ++ burnImage s.mga.burn ++ StoreItem.all.flatMap (fun i => enc2 (s.mga.live.get i))

def zoneImage (s : State) (z : Nat) : List Byte :=
  (s.zone z).image ++ (s.climate z).image ++ (s.fire z).image ++ (s.releaseTimer z).image

def stationImage (s : State) (i : Nat) : List Byte :=
  let r := s.stationRuntime i
  (s.station i).image ++ enc1 r.missed ++ encBool r.silent ++ lastForwardedImage r.lastForwarded

def hatchImage (s : State) (h : Nat) : List Byte :=
  (s.hatch h).image ++ (s.hatchRuntime h).image ++ encList ((s.hatchQueue h).map enc2) ++ (s.stepTimer h).image
    ++ (s.dwellTimer h).image

def alertsImage (s : State) : List Byte :=
  AlertKind.all.flatMap (fun k => AlertRec.image k (s.alertRec k.code))
    ++ encBool s.alb.held ++ encBool s.tmb.pulse.running ++ encBool s.alertLow

def storeImage (s : State) : List Byte :=
  StoreItem.all.flatMap (fun i => enc2 (s.mga.stored.get i) ++ enc1 (s.mga.burns.get i) ++ enc2 (s.mga.live.get i))
    ++ burnImage s.mga.burn

/-- READ is answered DONE with results, or with a status alone. -/
def readReply (s : State) (tag : Byte) : Except Status (List Byte) → State
  | .ok results => s.reply Req.read tag .done results
  | .error st => s.reply Req.read tag st []

/-- The result of a READ whose index is a number below `bound`. -/
def indexed (i bound : Nat) (result : List Byte) : Except Status (List Byte) :=
  if i < bound then .ok result else .error .range

/-- A record that exists, or NOT_FOUND. -/
def found (r : Option (List Byte)) : Except Status (List Byte) :=
  match r with
  | some b => .ok b
  | none => .error .notFound

/-- The result of READ by selector (R171); an index number stands in the first two bytes (log 21). -/
def readResult (s : State) (selector : Nat) (index : List Byte) : Except Status (List Byte) :=
  let i := nat2 index 0
  match selector with
  | 0x00 => .ok s.partImage
  | 0x01 => indexed i 16 (s.zoneImage i)
  | 0x02 => indexed i 64 ((s.probeCal i).image ++ (s.probeState i).image)
  | 0x03 => indexed i 96 (enc1 (s.inputKind i).code ++ enc1 (s.inputStage i).code)
  | 0x04 => indexed i 192 (s.stationImage i)
  | 0x05 => indexed i 4 (s.hatchImage i)
  | 0x06 => if i = 0 then .error .range else found ((s.consignment i).map Consignment.image)
  | 0x07 =>
    if identOk index then found ((s.mediaById index).map (fun p => p.2.image ++ enc2 p.1)) else .error .malformed
  | 0x08 => if i < Config.slotCount then found ((s.mediaAt i).map MediaRec.image) else .error .range
  | 0x09 => .ok s.alertsImage
  | 0x0A => .ok s.storeImage
  | _ => .error .malformed

end State

def execRead (tag : Byte) (selector : Nat) (index : List Byte) (s : State) : Host.Outcome State Fault Refusal :=
  .next (s.serve (.read tag selector index) Req.read tag (fun s => s.readReply tag (s.readResult selector index)))

end Sys2Proof.Machine
end

