-- ==== Sys2Proof/Machine/TimeBase.lean ====
section
/-!
DEFINITION. The Time Base (R35, R36, R41 to R43): the second tick, the minute tick and the ALERT pulse timer.
-/
namespace Sys2Proof.Machine

namespace State

/-! ### The second tick (R35, R41) -/

/-- A zone's release timer is advanced, and its expiry handed to the Fire Supervisor. It is started at the entry to
RELEASE_COUNTDOWN (R87) and stopped at each way out of it (R90, R95, R177, R178), so it advances there only (R88). -/
def advanceRelease (s : State) (z : Nat) : State :=
  let t := s.releaseTimer z
  let s1 := s.setReleaseTimer z t.advance
  if t.expires then s1.hand (.releaseTimerExpiry z) else s1

/-- A hatch's step timer is advanced, and its expiry handed to the Handover Controller. -/
def advanceStep (s : State) (h : Nat) : State :=
  let t := s.stepTimer h
  let s1 := s.setStepTimer h t.advance
  if t.expires then s1.hand (.stepTimerExpiry h) else s1

/-- A hatch's dwell timer is advanced, and its expiry handed to the Handover Controller. -/
def advanceDwell (s : State) (h : Nat) : State :=
  let t := s.dwellTimer h
  let s1 := s.setDwellTimer h t.advance
  if t.expires then s1.hand (.dwellTimerExpiry h) else s1

def advanceSupervision (s : State) : State :=
  let t := s.tmb.supervision
  let s1 := s.setSupervision t.advance
  if t.expires then s1.hand .supervisionTimerExpiry else s1

/-- The retry timer: an expiry while the last one is unacknowledged is an overrun (R42, R155). -/
def advanceRetry (s : State) : State :=
  let t := s.tmb.retry
  let s1 := s.setRetry t.advance
  if t.expires then s1.hand (.retryTimerExpiry t.pending) else s1

/-- Every instance measured in seconds is advanced (R35). -/
def advanceSeconds (s : State) : State :=
  let s1 := zoneNumbers.foldl advanceRelease s
  let s2 := (List.range Config.hatchCount).foldl advanceStep s1
  let s3 := (List.range Config.hatchCount).foldl advanceDwell s2
  s3.advanceSupervision.advanceRetry

def setSecondCount (s : State) (n : Nat) : State := { s with tmb := { s.tmb with secondCount := n } }

/-! ### The minute tick (R36) -/

/-- The three owners take the minute tick. The Custody Unit offers nothing at it, so the two orders are those of the
Climate Supervisor and the Handover Controller (log 8). -/
def minuteOwners (s : State) : OwnerOrder → State
  | .climateFirst => ((s.climateMinute).custodyMinute).handoverMinute
  | .climateLast => ((s.custodyMinute).handoverMinute).climateMinute

/-- The minute clock is incremented, then the owners take the tick. -/
def minuteTick (s : State) (order : OwnerOrder) : State :=
  minuteOwners { s with tmb := { s.tmb with minuteClock := s.tmb.minuteClock + 1 } } order

/-- A second tick, which is also a minute tick when the second count wraps (R35); the timers are advanced first (log 39). -/
def secondTick (s : State) (order : OwnerOrder) : State :=
  if s.tmb.secondCount + 1 < 60 then (s.setSecondCount (s.tmb.secondCount + 1)).advanceSeconds
  else ((s.setSecondCount 0).advanceSeconds).minuteTick order

/-! ### The ALERT pulse timer (R43, R163) -/

/-- The pulse ends and is acknowledged at once. -/
def endPulse (s : State) : State := s.setPulse { s.tmb.pulse with remaining := 0, running := false, pending := false }

/-- The remaining milliseconds of a running pulse pass (log 4). -/
def pulsePasses (s : State) : State := if s.tmb.pulse.running && !s.tmb.pulse.gated then s.endPulse else s

/-- One millisecond of the pulse timer (log 3). -/
def pulseMillisecond (s : State) : State :=
  if s.tmb.pulse.expires then s.endPulse else s.setPulse s.tmb.pulse.advance

end State

/-- SECOND_TICK (R35, R41). -/
def execSecondTick (order : OwnerOrder) (s : State) : Host.Outcome State Fault Refusal := .next (s.secondTick order)

/-- MINUTE_TICK (R36): the second tick at which the second count wraps; at another count no minute tick falls (log 5). -/
def execMinuteTick (order : OwnerOrder) (s : State) : Host.Outcome State Fault Refusal :=
  .next (if s.tmb.secondCount + 1 < 60 then s else s.secondTick order)

/-- ALERT_PULSE_EXPIRY (R43, R163). -/
def execAlertPulseExpiry (s : State) : Host.Outcome State Fault Refusal := .next s.pulsePasses

end Sys2Proof.Machine
end

