-- ==== Sys2Proof/Machine/Dispatch.lean ====
section
/-! DEFINITION. One arm for each command: one direct call of its meaning. -/
namespace Sys2Proof.Machine

def exec (i : Instr) (s : State) : Host.Outcome State Fault Refusal :=
  match i with
  | .reset => Sys2Proof.Machine.execReset s
  | .byteGapTimeout link => Sys2Proof.Machine.execByteGapTimeout link s
  | .siteFrameReceived bytes => Sys2Proof.Machine.execSiteFrameReceived bytes s
  | .siteTransmitComplete => Sys2Proof.Machine.execSiteTransmitComplete s
  | .fieldTransmissionEnd => Sys2Proof.Machine.execFieldTransmissionEnd s
  | .responseWindowExpiry => Sys2Proof.Machine.execResponseWindowExpiry s
  | .fieldResponse bytes => Sys2Proof.Machine.execFieldResponse bytes s
  | .fieldFrameOutOfTurn bytes => Sys2Proof.Machine.execFieldFrameOutOfTurn bytes s
  | .sample entry payload => Sys2Proof.Machine.execSample entry payload s
  | .stage entry payload => Sys2Proof.Machine.execStage entry payload s
  | .coupledZoneEvaluation zone => Sys2Proof.Machine.execCoupledZoneEvaluation zone s
  | .position entry payload => Sys2Proof.Machine.execPosition entry payload s
  | .takeScan entry payload => Sys2Proof.Machine.execTakeScan entry payload s
  | .returnScan entry payload => Sys2Proof.Machine.execReturnScan entry payload s
  | .wrongStationScan entry payload => Sys2Proof.Machine.execWrongStationScan entry payload s
  | .arrive entry payload => Sys2Proof.Machine.execArrive entry payload s
  | .caseReport entry payload => Sys2Proof.Machine.execCaseReport entry payload s
  | .accept entry payload => Sys2Proof.Machine.execAccept entry payload s
  | .confirm entry payload => Sys2Proof.Machine.execConfirm entry payload s
  | .scanHandover entry payload => Sys2Proof.Machine.execScanHandover entry payload s
  | .scanReceive entry payload => Sys2Proof.Machine.execScanReceive entry payload s
  | .doneStep entry payload => Sys2Proof.Machine.execDoneStep entry payload s
  | .zoneReport zone report => Sys2Proof.Machine.execZoneReport zone report s
  | .secondTick order => Sys2Proof.Machine.execSecondTick order s
  | .minuteTick order => Sys2Proof.Machine.execMinuteTick order s
  | .minuteScanVisit => Sys2Proof.Machine.execMinuteScanVisit s
  | .agentSweepVisit => Sys2Proof.Machine.execAgentSweepVisit s
  | .releaseTimerExpiry zone => Sys2Proof.Machine.execReleaseTimerExpiry zone s
  | .stepTimerExpiry hatch => Sys2Proof.Machine.execStepTimerExpiry hatch s
  | .dwellTimerExpiry hatch => Sys2Proof.Machine.execDwellTimerExpiry hatch s
  | .supervisionTimerExpiry => Sys2Proof.Machine.execSupervisionTimerExpiry s
  | .retryTimerExpiry overrun => Sys2Proof.Machine.execRetryTimerExpiry overrun s
  | .alertPulseExpiry => Sys2Proof.Machine.execAlertPulseExpiry s
  | .malformedRequest payload => Sys2Proof.Machine.execMalformedRequest payload s
  | .ident tag => Sys2Proof.Machine.execIdent tag s
  | .read tag selector index => Sys2Proof.Machine.execRead tag selector index s
  | .tableOpen tag table start => Sys2Proof.Machine.execTableOpen tag table start s
  | .tableWrite tag count images => Sys2Proof.Machine.execTableWrite tag count images s
  | .tableRead tag count => Sys2Proof.Machine.execTableRead tag count s
  | .activate tag expected => Sys2Proof.Machine.execActivate tag expected s
  | .activateCheckComplete order => Sys2Proof.Machine.execActivateCheckComplete order s
  | .deactivate tag => Sys2Proof.Machine.execDeactivate tag s
  | .restart tag => Sys2Proof.Machine.execRestart tag s
  | .zoneProfile tag zone profile => Sys2Proof.Machine.execZoneProfile tag zone profile s
  | .zoneClearExposure tag zone => Sys2Proof.Machine.execZoneClearExposure tag zone s
  | .zoneFireReset tag zone => Sys2Proof.Machine.execZoneFireReset tag zone s
  | .zoneRelease tag zone => Sys2Proof.Machine.execZoneRelease tag zone s
  | .zoneSilence tag zone => Sys2Proof.Machine.execZoneSilence tag zone s
  | .mediaEnter tag id cls home initial => Sys2Proof.Machine.execMediaEnter tag id cls home initial s
  | .mediaDelete tag id => Sys2Proof.Machine.execMediaDelete tag id s
  | .mediaMove tag id home => Sys2Proof.Machine.execMediaMove tag id home s
  | .mediaHoldSet tag id hold => Sys2Proof.Machine.execMediaHoldSet tag id hold s
  | .mediaHoldClear tag id hold => Sys2Proof.Machine.execMediaHoldClear tag id hold s
  | .mediaQuery tag id => Sys2Proof.Machine.execMediaQuery tag id s
  | .consign tag number direction hatch courier items => Sys2Proof.Machine.execConsign tag number direction hatch courier items s
  | .consignCancel tag number => Sys2Proof.Machine.execConsignCancel tag number s
  | .clearAlerts tag kinds => Sys2Proof.Machine.execClearAlerts tag kinds s
  | .setMask tag value kinds => Sys2Proof.Machine.execSetMask tag value kinds s
  | .resume tag => Sys2Proof.Machine.execResume tag s
  | .storeBurn tag item value => Sys2Proof.Machine.execStoreBurn tag item value s
  | .storeBurnComplete => Sys2Proof.Machine.execStoreBurnComplete s
  | .setLive tag item value => Sys2Proof.Machine.execSetLive tag item value s

end Sys2Proof.Machine
end

