-- ==== Sys2Proof/Safety.lean ====
section
/-!
DEFINITION. What the statements about the part speak of: what a report and a frame bound for the field may change, what
the site station receives, when the Management Agent carries a request out, and the invariants of the state.
-/
namespace Sys2Proof.Machine

/-! ### Frames of the shared operations -/

/-- `t` differs from `s` only in what a report may change: the site queue and transmitter, the alert table with its held
mark, and the ALERT pulse timer. -/
structure Reported (s t : State) : Prop where
  rx : t.slp.rx = s.slp.rx
  fsp : t.fsp = s.fsp
  cgt : t.cgt = s.cgt
  secondCount : t.tmb.secondCount = s.tmb.secondCount
  minuteClock : t.tmb.minuteClock = s.tmb.minuteClock
  release : t.tmb.release = s.tmb.release
  step : t.tmb.step = s.tmb.step
  dwell : t.tmb.dwell = s.tmb.dwell
  supervision : t.tmb.supervision = s.tmb.supervision
  retry : t.tmb.retry = s.tmb.retry
  cls : t.cls = s.cls
  frs : t.frs = s.frs
  csu : t.csu = s.csu
  hoc : t.hoc = s.hoc
  mga : t.mga = s.mga
  handed : t.handed = s.handed
  pending : t.pending = s.pending

/-- `t` differs from `s` only in what a report or a frame bound for the field may change: what `Reported` allows, the
field segment with its queues, and the manual flag, moved mark and unlock reference of the hatches (R33, R138). -/
structure Sent (s t : State) : Prop where
  rx : t.slp.rx = s.slp.rx
  fieldRx : t.fsp.rx = s.fsp.rx
  rxInWindow : t.fsp.rxInWindow = s.fsp.rxInWindow
  cgt : t.cgt = s.cgt
  secondCount : t.tmb.secondCount = s.tmb.secondCount
  minuteClock : t.tmb.minuteClock = s.tmb.minuteClock
  release : t.tmb.release = s.tmb.release
  step : t.tmb.step = s.tmb.step
  dwell : t.tmb.dwell = s.tmb.dwell
  supervision : t.tmb.supervision = s.tmb.supervision
  retry : t.tmb.retry = s.tmb.retry
  cls : t.cls = s.cls
  frs : t.frs = s.frs
  csu : t.csu = s.csu
  hatches : t.hoc.hatches = s.hoc.hatches
  consignments : t.hoc.consignments = s.hoc.consignments
  position : ∀ h, (t.hatchRuntime h).position = (s.hatchRuntime h).position
  unitSilent : ∀ h, (t.hatchRuntime h).unitSilent = (s.hatchRuntime h).unitSilent
  dwellDone : ∀ h, (t.hatchRuntime h).dwellDone = (s.hatchRuntime h).dwellDone
  urgency : ∀ h, (t.hatchRuntime h).urgent = (s.hatchRuntime h).urgent
  mga : t.mga = s.mga
  handed : t.handed = s.handed
  pending : t.pending = s.pending

/-! ### What is seen from outside -/

/-- The frames the site station is yet to receive, the one being sent first (R5). -/
def State.siteOutput (s : State) : List SiteItem := s.slp.tx.toList ++ s.slp.queue

/-- The same state with the mark that the field receiver's partial frame began in the open window (R10). -/
def State.inWindow (s : State) (b : Bool) : State := { s with fsp := { s.fsp with rxInWindow := b } }

/-- A frame whose fields fit their widths (R1). -/
abbrev Frame.fits (f : Frame) : Prop := f.dst < 256 ∧ f.src < 256 ∧ f.kind < 256 ∧ f.payload.length ≤ 255

/-- The bytes of one complete frame, whatever its check (R3). -/
abbrev IsComplete (bytes : List Byte) : Prop := completeLength bytes = some bytes.length

/-- The Management Agent carries a request out: neither a RESTART nor an activation check is in progress (R169). -/
abbrev State.ready (s : State) : Prop := s.mga.restartPending = false ∧ s.mga.check = none

/-- The state in which a request is carried out: the REQUEST is taken, and supervision has been triggered (R147). -/
def State.requested (s : State) (c : Instr) : State := (s.takeHanded c).requestTaken

/-- The request kind and the tag that a REQUEST's REPLY carries; none for a command that is no REQUEST (R168, 11.4). -/
def requestHead : Instr → Option (Nat × Byte)
  | .malformedRequest p => some ((State.echoByte p 0).toNat, State.echoByte p 1)
  | .ident tag => some (0x01, tag)
  | .read tag _ _ => some (0x02, tag)
  | .tableOpen tag _ _ => some (0x03, tag)
  | .tableWrite tag _ _ => some (0x04, tag)
  | .tableRead tag _ => some (0x05, tag)
  | .activate tag _ => some (0x06, tag)
  | .deactivate tag => some (0x07, tag)
  | .restart tag => some (0x08, tag)
  | .zoneProfile tag _ _ => some (0x10, tag)
  | .zoneClearExposure tag _ => some (0x11, tag)
  | .zoneFireReset tag _ => some (0x12, tag)
  | .zoneRelease tag _ => some (0x13, tag)
  | .zoneSilence tag _ => some (0x14, tag)
  | .mediaEnter tag _ _ _ _ => some (0x20, tag)
  | .mediaDelete tag _ => some (0x21, tag)
  | .mediaMove tag _ _ => some (0x22, tag)
  | .mediaHoldSet tag _ _ => some (0x23, tag)
  | .mediaHoldClear tag _ _ => some (0x24, tag)
  | .mediaQuery tag _ => some (0x25, tag)
  | .consign tag _ _ _ _ _ => some (0x30, tag)
  | .consignCancel tag _ => some (0x31, tag)
  | .clearAlerts tag _ => some (0x40, tag)
  | .setMask tag _ _ => some (0x41, tag)
  | .resume tag => some (0x42, tag)
  | .storeBurn tag _ _ => some (0x50, tag)
  | .setLive tag _ _ => some (0x51, tag)
  | _ => none

/-- A job block takes frames of a station entry: the part is ACTIVE and the entry is in use (R22, R24). -/
abbrev State.serves (s : State) (entry : Nat) : Prop := s.active = true ∧ (s.station entry).addr ≠ 0

/-- `u` is `s` after one second: the second count and the minute clock are the ones given, every timer that counts seconds
is advanced (R41), each expiry is handed to its owner, in the order of the instance list of R44, and nothing else has
changed (R35). An expiry of the retry timer carries the mark of an overrun (R42). -/
structure SecondPassed (s u : State) (count : Nat) (clock : Minute) : Prop where
  secondCount : u.tmb.secondCount = count
  minuteClock : u.tmb.minuteClock = clock
  release : ∀ z, u.releaseTimer z = if z < 16 then (s.releaseTimer z).advance else s.releaseTimer z
  step : ∀ h, u.stepTimer h = if h < 4 then (s.stepTimer h).advance else s.stepTimer h
  dwell : ∀ h, u.dwellTimer h = if h < 4 then (s.dwellTimer h).advance else s.dwellTimer h
  supervision : u.tmb.supervision = s.tmb.supervision.advance
  retry : u.tmb.retry = s.tmb.retry.advance
  pulse : u.tmb.pulse = s.tmb.pulse
  handed : u.handed = s.handed
    ++ ((List.range 16).filter (fun z => (s.releaseTimer z).expires)).map Instr.releaseTimerExpiry
    ++ ((List.range 4).filter (fun h => (s.stepTimer h).expires)).map Instr.stepTimerExpiry
    ++ ((List.range 4).filter (fun h => (s.dwellTimer h).expires)).map Instr.dwellTimerExpiry
    ++ (if s.tmb.supervision.expires then [Instr.supervisionTimerExpiry] else [])
    ++ (if s.tmb.retry.expires then [Instr.retryTimerExpiry s.tmb.retry.pending] else [])
  others : u.slp = s.slp ∧ u.fsp = s.fsp ∧ u.cgt = s.cgt ∧ u.cls = s.cls ∧ u.frs = s.frs ∧ u.csu = s.csu ∧ u.hoc = s.hoc
    ∧ u.alb = s.alb ∧ u.mga = s.mga ∧ u.pending = s.pending

/-! ### Invariants -/

/-- Bounds and agreements the spec gives the state whatever has happened. -/
structure State.Sound (s : State) : Prop where
  /-- At most 48 frames wait for the site station (R5). -/
  siteQueue : s.slp.queue.length ≤ Config.siteCapacity
  /-- The site transmitter is idle only with an empty queue (R5). -/
  transmitter : s.slp.tx = none → s.slp.queue = []
  /-- At most 32 ordinary frames wait (R14). -/
  ordinaryQueue : s.fsp.ordinary.length ≤ Config.ordinaryCapacity
  /-- At most one urgent frame for each destination (R13). -/
  urgentOnce : (s.fsp.urgent.map Frame.dst).Nodup
  /-- The missed count is 0..3 and SILENT is marked at 3 alone (R12). -/
  missed : ∀ i, (s.stationRuntime i).missed ≤ 3 ∧ ((s.stationRuntime i).silent = true ↔ (s.stationRuntime i).missed = 3)
  /-- The second count is 0..59 (R35). -/
  secondCount : s.tmb.secondCount < 60
  /-- Exposure stays within 16 bits (R65). -/
  exposure : ∀ z, (s.climate z).exposure ≤ 65535
  /-- At most 8 consignments (R123). -/
  consignments : s.hoc.consignments.length ≤ Config.consignmentCount
  /-- An alert count is 0..255 (R158). -/
  alertCount : ∀ k, (s.alertRec k).count ≤ 255
  /-- The held mark says whether a held condition is present and unmasked (R163). -/
  held : s.alb.held = AlertKind.all.any s.holdsLine
  /-- Each item is burnt at most 4 times (R180). -/
  burns : ∀ i, s.mga.burns.get i ≤ 4

/-- Every table is in its canonical form: indices rise and no listed entry equals the value of an unlisted one, so that
equal tables are equal data. -/
structure State.Canonical (s : State) : Prop where
  stations : Tab.wf .zero s.cgt.stations = true
  actuators : Tab.wf .unassigned s.cgt.actuators = true
  runtime : Tab.wf .fresh s.cgt.runtime = true
  release : Tab.wf .zero s.tmb.release = true
  step : Tab.wf .zero s.tmb.step = true
  dwell : Tab.wf .zero s.tmb.dwell = true
  probes : Tab.wf .zero s.cls.probes = true
  profiles : Tab.wf .zero s.cls.profiles = true
  zones : Tab.wf .zero s.cls.zones = true
  probeState : Tab.wf .noSample s.cls.probeState = true
  climate : Tab.wf .fresh s.cls.climate = true
  inputs : Tab.wf .smoke s.frs.inputs = true
  stages : Tab.wf .noReport s.frs.stages = true
  fire : Tab.wf .fresh s.frs.fire = true
  classes : Tab.wf .zero s.csu.classes = true
  media : Tab.wf none s.csu.media = true
  hatches : Tab.wf .zero s.hoc.hatches = true
  hatchRuntime : Tab.wf .fresh s.hoc.runtime = true
  alerts : Tab.wf .fresh s.alb.alerts = true

/-- The frames the part is sending, or will send, to the field of its own accord ahead of all others (R13, R15). -/
def State.urgentOutput (s : State) : List Frame :=
  (match s.fsp.segment with
   | .sending (.urgent f) => [f]
   | _ => []) ++ s.fsp.urgent

/-- No RELEASE frame is being sent or waits in the urgent queue. -/
def State.noRelease (s : State) : Prop := ∀ f ∈ s.urgentOutput, f.kind ≠ Kind.release

end Sys2Proof.Machine
end

