-- ==== Sys2Proof/Certificates/Slice0/Obligations.lean ====
section
/-!
DEFINITION. The statements about the part, for the provers. `exec c s = .next t` says that a command completes and in
what state; where a next state is written with an operation of the model, another statement says what that operation does.
Events one block hands to another wait in `handed` as the commands that take them (the model's choice, log 1).
-/
section
open Sys2Proof Sys2Proof.Machine

/-! ### The queue of commands and reset -/

/-- One step takes the command at the front of the queue and runs it with the rest of the queue waiting. -/
def Obligations.StepRunsTheFrontCommand : Prop :=  ∀ (c : Instr) (rest : List Instr) (s : State),
    step { s with pending := c :: rest } = exec c { s with pending := rest }

/-- With no outside command waiting the part takes its oldest handed event, and with none a millisecond of a running ALERT
pulse passes (R43). That the empty queue is the time at which it does so is the model's choice (DESIGN CHOICE, log 3).
ALERT_PULSE_EXPIRY: a running pulse timer stops at 0, acknowledged at once, and the ALERT line then follows the held mark
alone; with no pulse running nothing happens. That the command is the passing of all remaining milliseconds is the model's
choice (DESIGN CHOICE, log 4). -/
def Obligations.IdleStepsAndTheAlertPulse : Prop :=
  (∀ s : State, s.pending = [] →
    (∀ c rest, s.handed = c :: rest → step s = exec c s)
    ∧ (s.handed = [] →
        (s.tmb.pulse.running = false → step s = .next s)
        ∧ (s.tmb.pulse.running = true → s.tmb.pulse.gated = false → 1 < s.tmb.pulse.remaining →
            step s = .next (s.setPulse { s.tmb.pulse with remaining := s.tmb.pulse.remaining - 1 }))
        ∧ (s.tmb.pulse.running = true → s.tmb.pulse.gated = false → s.tmb.pulse.remaining ≤ 1 →
            step s = .next (s.setPulse { s.tmb.pulse with remaining := 0, running := false, pending := false }))))
  ∧ (∀ s : State,
    (s.tmb.pulse.running = true → s.tmb.pulse.gated = false →
      ∃ t, exec .alertPulseExpiry s = .next t
        ∧ t = s.setPulse { s.tmb.pulse with remaining := 0, running := false, pending := false }
        ∧ t.alertLow = s.alb.held)
    ∧ (s.tmb.pulse.running = false → exec .alertPulseExpiry s = .next s ∧ s.alertLow = s.alb.held))

/-- RESET: the ports, the Management Agent, every table, every record and every field of the 27 interval timers take their
values after reset, the commissioning store is kept, and each live value is its item's stored value. The model's choices:
that the commands waiting outside stay (log 28), the mark beside the field receiver's partial frame (log 6), and what the scan
and sweep records gather (log 23). State.reset is a part as delivered after its first power-on (DESIGN CHOICE, log 36): own
address 251, site address 250, both timeouts 30 s, VAULT_ID 0, no burns, CONFIG (R180, R183), and nothing waiting outside. -/
def Obligations.ResetSetsEveryField : Prop :=
  (∀ s : State, ∃ t : State, exec .reset s = .next t
    ∧ t.slp = ⟨[], [], none⟩
    ∧ t.fsp.rx = [] ∧ t.fsp.rxInWindow = false ∧ t.fsp.segment = .idle ∧ t.fsp.pollPos = none ∧ t.fsp.lastNonUrgent = .ordinary
    ∧ t.fsp.urgent = [] ∧ t.fsp.ordinary = []
    ∧ (∀ i, t.station i = ⟨0, .probe, some 0, .none, 0, .all⟩ ∧ t.actuator i = .unassigned
        ∧ t.stationRuntime i = ⟨0, false, none⟩)
    ∧ (∀ i, t.profile i = ⟨0, 0, 0, 0, 0, 0, 0, 0, 0, 0⟩ ∧ t.zone i = ⟨0, .warning, 0, 0, false, false, 0, 0, [0, 0, 0, 0]⟩
        ∧ t.probeCal i = ⟨0, 0⟩ ∧ t.inputKind i = .smoke ∧ t.classEntry i = ⟨0, 0, 0, 0⟩
        ∧ t.hatch i = ⟨0, 0, 0, 0, some 0, .interlocked, 0, 0, 0, false, 0, 0, 0, 0, 0⟩)
    ∧ t.mga.partState = .config ∧ t.mga.check = none ∧ t.mga.restartPending = false ∧ t.mga.window = none
    ∧ t.mga.burn = none ∧ t.mga.stored = s.mga.stored ∧ t.mga.burns = s.mga.burns ∧ t.mga.live = s.mga.stored
    ∧ t.tmb.minuteClock = 0 ∧ t.tmb.secondCount = 0
    ∧ (let still : Timer := ⟨0, 0, false, false, false, false, false⟩
       t.tmb.supervision = still ∧ t.tmb.retry = still ∧ t.tmb.pulse = still
       ∧ ∀ i, t.releaseTimer i = still ∧ t.stepTimer i = still ∧ t.dwellTimer i = still)
    ∧ (∀ i, t.probeState i = .noSample ∧ t.climate i = ⟨.noData, none, 0, 0, 0, false, false, false⟩)
    ∧ (∀ i, t.inputStage i = .noReport ∧ t.fire i = ⟨.quiet, none, [], false, false⟩)
    ∧ (∀ i, t.mediaAt i = none) ∧ t.csu.scan = ⟨none, false, 0, [], 0⟩ ∧ t.csu.sweep = ⟨none, [], [], 0⟩
    ∧ (∀ h, t.hatchRuntime h = ⟨.noReport, false, false, false, false, none, false⟩) ∧ t.hoc.consignments = []
    ∧ (∀ k, t.alertRec k = ⟨false, 0, none, false, []⟩) ∧ t.alb.held = false
    ∧ t.handed = [] ∧ t.pending = s.pending)
  ∧ (exec .reset State.reset = .next State.reset
    ∧ State.reset.mga.stored = ⟨251, 250, 30, 30, 0⟩ ∧ (∀ i, State.reset.mga.burns.get i = 0)
    ∧ State.reset.mga.live = ⟨251, 250, 30, 30, 0⟩ ∧ State.reset.mga.partState = .config ∧ State.reset.pending = [])

/-! ### Frames and the site link (R1 to R7, R29 to R32) -/

/-- A frame with fields of their widths is sent as four head bytes, its payload and two check bytes, the check high byte
first, and it is received as the same frame: complete at its last byte and with a check that succeeds. -/
def Obligations.FrameReadsBackFromItsBytes : Prop :=  ∀ f : Frame, f.fits →
    f.image.length = 4 + f.payload.length + 2 ∧ IsComplete f.image ∧ readFrame f.image = some f
    ∧ f.image.take 4 = [BitVec.ofNat 8 f.dst, BitVec.ofNat 8 f.src, BitVec.ofNat 8 f.kind,
        BitVec.ofNat 8 f.payload.length]
    ∧ f.image.drop (4 + f.payload.length)
        = [(checkValue f.body).extractLsb' 8 8, (checkValue f.body).extractLsb' 0 8]

/-- The check value: the register starts at FFFFh, each byte is taken most significant bit first, and a bit that differs from
the register's top bit combines the shifted register with 6F63h. The check value of the byte 00h is DDFCh. -/
def Obligations.CheckValueFollowsItsGenerator : Prop :=  checkValue [] = 0xFFFF
    ∧ (∀ (bytes : List Byte) (x : Byte), checkValue (bytes ++ [x])
        = [7, 6, 5, 4, 3, 2, 1, 0].foldl (fun (r : CheckWord) i =>
            if r.getLsbD 15 = x.getLsbD i then r <<< 1 else (r <<< 1) ^^^ 0x6F63) (checkValue bytes))
    ∧ checkValue [0] = 0xDDFC

/-- A gap of more than 10 ms discards a partial frame and raises FRAME_ERRORS with the source of its link; a response of
an open window is then also a missed response, and the segment is free. With no partial frame nothing happens. That
frames an owner queues in this event join before the arbiter's choice is the model's choice (log 46). -/
def Obligations.ByteGapDiscardsThePartialFrame : Prop :=  ∀ s : State,
    (s.slp.rx ≠ [] →
      exec (.byteGapTimeout .site) s
        = .next (State.raiseEvent { s with slp := { s.slp with rx := [] } } .frameErrors 0))
    ∧ (s.slp.rx = [] → exec (.byteGapTimeout .site) s = .next s)
    ∧ (s.fsp.rx ≠ [] →
        (∀ i a rewritten, s.fsp.rxInWindow = true → s.fsp.segment = .awaiting i a rewritten →
          exec (.byteGapTimeout .field) s
            = .next (((State.raiseEvent { s with fsp := { s.fsp with rx := [], rxInWindow := false } } .frameErrors 1
                ).missedResponse i a rewritten).arbitrate))
        ∧ (s.fsp.rxInWindow = false ∨ s.fsp.segment = .idle ∨ (∃ x, s.fsp.segment = .sending x) →
          exec (.byteGapTimeout .field) s
            = .next (State.raiseEvent { s with fsp := { s.fsp with rx := [], rxInWindow := false } } .frameErrors 1)))
    ∧ (s.fsp.rx = [] → exec (.byteGapTimeout .field) s = .next s)

/-- A complete site frame whose check fails, or whose source is not the live SITE_ADDRESS, is discarded and raises
FRAME_ERRORS with source SITE; nothing else of the part changes but by that raise. A site frame that passes its tests
is classified by its destination and kind: a REQUEST to the own address is handed to the Management Agent as the
command it asks for; another kind to the own address raises FRAME_ERRORS; in CONFIG any other frame is offered to the
ordinary queue; in the ACTIVE states the command gate is asked first, and a blocked frame gives a BLOCKED notice of
stage ENTRY. Bytes that complete no frame wait beside those that arrived before them; of bytes that complete a frame
and hold more, the frame is taken first, and the rest is then received in the same way. -/
def Obligations.SiteFramesAreTestedThenClassified : Prop :=
  (∀ (s : State) (bytes : List Byte), s.slp.rx = [] → IsComplete bytes →
    (readFrame bytes = none ∨ ∃ f, readFrame bytes = some f ∧ f.src ≠ s.mga.live.siteAddress) →
    exec (.siteFrameReceived bytes) s = .next (s.raiseEvent .frameErrors 0))
  ∧ (∀ (s : State) (f : Frame), s.slp.rx = [] → f.fits → f.src = s.mga.live.siteAddress →
    (f.dst = s.mga.live.ownAddress → f.kind = 0x30 →
      exec (.siteFrameReceived f.image) s = .next { s with handed := s.handed ++ [readRequest f.payload] })
    ∧ (f.dst = s.mga.live.ownAddress → f.kind ≠ 0x30 →
      exec (.siteFrameReceived f.image) s = .next (s.raiseEvent .frameErrors 0))
    ∧ (f.dst ≠ s.mga.live.ownAddress → s.active = false →
      exec (.siteFrameReceived f.image) s = .next (s.offerOrdinary ⟨f, .site⟩))
    ∧ (f.dst ≠ s.mga.live.ownAddress → s.active = true → s.gateTest f = none →
      exec (.siteFrameReceived f.image) s = .next (s.offerOrdinary ⟨f, .site⟩))
    ∧ (∀ why, f.dst ≠ s.mga.live.ownAddress → s.active = true → s.gateTest f = some why →
      exec (.siteFrameReceived f.image) s
        = .next (s.offerNotice ([5, BitVec.ofNat 8 f.kind, BitVec.ofNat 8 f.dst, BitVec.ofNat 8 why.code, 0]))))
  ∧ (∀ (s : State) (bytes : List Byte),
    let held := s.slp.rx ++ bytes
    (held.length < 4 ∨ held.length < 6 + nat1 held 3 →
      exec (.siteFrameReceived bytes) s = .next { s with slp := { s.slp with rx := held } })
    ∧ (∀ frame rest, held = frame ++ rest → IsComplete frame →
      let u := { s with slp := { s.slp with rx := rest } }
      let goesOn (v : State) : Prop := exec (.siteFrameReceived bytes) s = exec (.siteFrameReceived []) v
      (readFrame frame = none → goesOn (u.raiseEvent .frameErrors 0))
      ∧ (∀ f, readFrame frame = some f →
        (f.src ≠ s.mga.live.siteAddress → goesOn (u.raiseEvent .frameErrors 0))
        ∧ (f.src = s.mga.live.siteAddress →
          (f.dst = s.mga.live.ownAddress → f.kind = 0x30 →
            goesOn { u with handed := s.handed ++ [readRequest f.payload] })
          ∧ (f.dst = s.mga.live.ownAddress → f.kind ≠ 0x30 → goesOn (u.raiseEvent .frameErrors 0))
          ∧ (f.dst ≠ s.mga.live.ownAddress → s.active = false ∨ s.gateTest f = none → goesOn (u.offerOrdinary ⟨f, .site⟩))
          ∧ (∀ why, f.dst ≠ s.mga.live.ownAddress → s.active = true → s.gateTest f = some why →
            goesOn (u.offerNotice [5, byteOf f.kind, byteOf f.dst, byteOf why.code, 0]))))))

/-- The rows of the command gate in their order; the first that matches decides. A broadcast frame of another kind
passes. -/
def Obligations.CommandGateRows : Prop :=  ∀ (s : State) (f : Frame),
    (f.kind = 0x25 → s.gateTest f = some .releaseReserved)
    ∧ (f.dst = 255 → f.kind = 0x22 ∨ f.kind = 0x23 ∨ f.kind = 0x24 → s.gateTest f = some .broadcast)
    ∧ (f.dst = 255 → f.kind ∉ [0x22, 0x23, 0x24, 0x25] → s.gateTest f = none)
    ∧ (f.kind ≠ 0x25 → f.dst ≠ 255 →
        (s.stationByAddr f.dst = none → s.gateTest f = none)
        ∧ (∀ e z, s.stationByAddr f.dst = some e → e.kind = .actuator → e.zone = some z → f.kind = 0x22 →
            s.actuator e.index = .humidifier ∨ s.actuator e.index = .dehumidifier →
            s.gateTest f = if (s.fireState z).latched then some .fireState
              else if s.mga.partState = .autonomous then some .autonomous else none)
        ∧ (∀ e z, s.stationByAddr f.dst = some e → e.kind = .actuator → e.zone = some z → f.kind = 0x22 →
            s.actuator e.index = .damper →
            s.gateTest f = if s.fireState z = .releaseCountdown ∨ s.fireState z = .released then some .fireState else none)
        ∧ (∀ e z, s.stationByAddr f.dst = some e → e.zone = some z → f.kind = 0x23 →
            s.gateTest f = if s.fireState z ≠ .quiet then some .fireState else none)
        ∧ (∀ e h he, s.stationByAddr f.dst = some e → f.kind = 0x24 → s.hatchByUnit f.dst = some (h, he) →
            s.gateTest f = if (s.fireState he.inner).latched then some .fireState
              else if ∃ c ∈ s.hoc.consignments, c.hatch = h ∧ c.state ≠ .waiting then some .handoverActive else none)
        ∧ (f.kind ≠ 0x22 → f.kind ≠ 0x23 → f.kind ≠ 0x24 → s.gateTest f = none)
        ∧ (∀ e, s.stationByAddr f.dst = some e → f.kind = 0x22 →
            e.kind ≠ .actuator ∨ s.actuator e.index = .unassigned ∨ s.actuator e.index = .sounder
              ∨ s.actuator e.index = .suppression → s.gateTest f = none)
        ∧ (∀ e, s.stationByAddr f.dst = some e → f.kind = 0x23 → e.zone = none → s.gateTest f = none)
        ∧ (f.kind = 0x24 → s.hatchByUnit f.dst = none → s.gateTest f = none))

/-- A frame offered to the site queue: with fewer than 48 frames waiting it is the last frame the site station receives; with
48 waiting it is dropped, CONGESTION of source SITE is latched, and its notice, dropped in its turn, raises nothing. Either
way nothing else of the part changes. SITE_TRANSMIT_COMPLETE: the transmitter takes the oldest waiting frame, or falls idle; a
transmitter that sends nothing has nothing to complete. -/
def Obligations.SiteQueueAndTransmitter : Prop :=
  (∀ (s : State) (f : SiteItem),
    Reported s (s.offerSite f)
    ∧ (s.slp.queue.length < 48 →
        (s.offerSite f).siteOutput = s.siteOutput ++ [f] ∧ (s.offerSite f).alb = s.alb
          ∧ (s.offerSite f).tmb.pulse = s.tmb.pulse)
    ∧ (48 ≤ s.slp.queue.length →
        (s.offerSite f).slp = s.slp
        ∧ (s.offerSite f).alertRec AlertKind.congestion.code =
            { s.alertRec AlertKind.congestion.code with
                latched := true, lastSource := some 0
                count := if (s.alertRec AlertKind.congestion.code).count < 255
                  then (s.alertRec AlertKind.congestion.code).count + 1
                  else (s.alertRec AlertKind.congestion.code).count }))
  ∧ (∀ s : State,
    (∀ f, s.slp.tx = some f → f.tag ≠ .restartReply →
      exec .siteTransmitComplete s = .next { s with slp := ⟨s.slp.rx, s.slp.queue.tail, s.slp.queue.head?⟩ })
    ∧ (s.slp.tx = none → exec .siteTransmitComplete s = .next s))

/-! ### The field segment (R8 to R16, R31 to R33) -/

/-- FIELD_TRANSMISSION_END: the window of a poll opens with the address the poll was sent to; after an urgent or ordinary
frame the arbiter chooses at once; with nothing being sent nothing ends. RESPONSE_WINDOW_EXPIRY: an open window in
which no byte of a response has arrived is a missed response, and the arbiter chooses; with a response under way, or
no window, nothing expires. That bytes of a frame begun out of turn do not stop the expiry is the model's choice (log
38). So is that frames an owner queues on a SILENT change join before the choice (log 46). -/
def Obligations.TransmissionsAndWindowsEnd : Prop :=
  (∀ s : State,
    (∀ i f, s.fsp.segment = .sending (.poll i f) →
      exec .fieldTransmissionEnd s = .next { s with fsp := { s.fsp with segment := .awaiting i f.dst false } })
    ∧ (∀ f, s.fsp.segment = .sending (.urgent f) → exec .fieldTransmissionEnd s = .next s.arbitrate)
    ∧ (∀ it, s.fsp.segment = .sending (.ordinary it) → exec .fieldTransmissionEnd s = .next s.arbitrate)
    ∧ (s.fsp.segment = .idle ∨ (∃ i a b, s.fsp.segment = .awaiting i a b) → exec .fieldTransmissionEnd s = .next s))
  ∧ (∀ s : State,
    (∀ i a rewritten, s.fsp.segment = .awaiting i a rewritten → s.fsp.rxInWindow = false →
      exec .responseWindowExpiry s = .next ((s.missedResponse i a rewritten).arbitrate))
    ∧ (s.fsp.rxInWindow = true ∨ s.fsp.segment = .idle ∨ (∃ x, s.fsp.segment = .sending x) →
      exec .responseWindowExpiry s = .next s))

/-- The arbiter's cases in their order: the head of the urgent queue; the oldest ordinary frame, after a poll or with an empty
poll list, if it passes the test made when it is taken, and otherwise a choice made anew without it; a poll; IDLE. The entry
polled next is the first non-empty entry after the poll position, searching upward and wrapping; from BEFORE_FIRST the search
begins at entry 0; there is none only when every entry is empty. -/
def Obligations.ArbiterChoosesByItsCases : Prop :=
  (∀ s : State,
    (∀ f rest, s.fsp.urgent = f :: rest →
      s.arbitrate = { s with fsp := { s.fsp with urgent := rest, segment := .sending (.urgent f) } })
    ∧ (s.fsp.urgent = [] →
        (∀ it rest, s.fsp.ordinary = it :: rest → s.fsp.lastNonUrgent = .poll ∨ s.stationList = [] →
          ∀ ok s2, State.sendTest { s with fsp := { s.fsp with ordinary := rest } } it = (ok, s2) →
            s.arbitrate =
              if ok then { s2 with fsp := { s2.fsp with segment := .sending (.ordinary it), lastNonUrgent := .ordinary } }
              else s2.arbitrate)
        ∧ (s.fsp.ordinary = [] ∨ (s.fsp.lastNonUrgent = .ordinary ∧ s.stationList ≠ []) →
            (∀ i e, s.nextPoll = some (i, e) →
              s.arbitrate = { s with fsp := { s.fsp with
                segment := .sending (.poll i ⟨e.addr, s.mga.live.ownAddress, 0x01, []⟩)
                pollPos := some i
                lastNonUrgent := .poll } })
            ∧ (s.nextPoll = none → s.arbitrate = { s with fsp := { s.fsp with segment := .idle } }))))
  ∧ (∀ s : State, Tab.wf .zero s.cgt.stations = true →
    (s.nextPoll = none ↔ ∀ i, (s.station i).addr = 0)
    ∧ (∀ i e, s.nextPoll = some (i, e) →
        s.station i = e ∧ e.addr ≠ 0
        ∧ (s.fsp.pollPos = none → ∀ j, (s.station j).addr ≠ 0 → i ≤ j)
        ∧ (∀ p, s.fsp.pollPos = some p →
            (∀ j, p < j → (s.station j).addr ≠ 0 → p < i ∧ i ≤ j)
            ∧ ((∀ j, p < j → (s.station j).addr = 0) → ∀ j, (s.station j).addr ≠ 0 → i ≤ j))))

/-- A frame that joins a field queue: an urgent frame replaces the waiting frame for its destination in its place, or
joins at the tail; an ordinary frame, of whatever origin, joins at the tail, or with 32 waiting is dropped with
CONGESTION of source FIELD. On an IDLE segment the arbiter then chooses. An originated frame carries the live own
address; that the frame in a replaced position does so too is the model's reading (DEDUCED, log 31). -/
def Obligations.FieldQueuesTakeFrames : Prop :=  ∀ s : State,
    (∀ dst kind payload,
      (s.fsp.urgent.all (fun g => g.dst != dst) = true →
        s.queueUrgent dst kind payload = State.arbitrateIfIdle { s with fsp := { s.fsp with
          urgent := s.fsp.urgent ++ [⟨dst, s.mga.live.ownAddress, kind, payload⟩] } })
      ∧ (∀ front g back, s.fsp.urgent = front ++ g :: back → g.dst = dst → front.all (fun x => x.dst != dst) = true →
        s.queueUrgent dst kind payload = State.arbitrateIfIdle { s with fsp := { s.fsp with
          urgent := front ++ ⟨dst, s.mga.live.ownAddress, kind, payload⟩ :: back } }))
    ∧ (∀ o dst kind payload, s.fsp.ordinary.length < 32 →
        s.originate o dst kind payload = State.arbitrateIfIdle { s with fsp := { s.fsp with
          ordinary := s.fsp.ordinary ++ [⟨⟨dst, s.mga.live.ownAddress, kind, payload⟩, o⟩] } })
    ∧ (∀ it, s.fsp.ordinary.length < 32 →
        s.offerOrdinary it = State.arbitrateIfIdle { s with fsp := { s.fsp with ordinary := s.fsp.ordinary ++ [it] } })
    ∧ (∀ it, 32 ≤ s.fsp.ordinary.length →
        Reported s (s.offerOrdinary it)
        ∧ ((s.offerOrdinary it).alertRec AlertKind.congestion.code).latched = true
        ∧ ((s.offerOrdinary it).alertRec AlertKind.congestion.code).lastSource = some 1)
    ∧ (s.fsp.segment = .idle → s.arbitrateIfIdle = s.arbitrate)
    ∧ (s.fsp.segment ≠ .idle → s.arbitrateIfIdle = s)

/-- The test made when a frame is taken from the ordinary queue for sending. A site frame in an ACTIVE state is gated
again: a blocked one gives a BLOCKED notice of stage SEND, and a HATCH UNLOCK that passes sets the hatch's manual flag
and clears its moved mark; in CONFIG it is sent. A CHIME is sent while the zone of its destination is QUIET. A HATCH
UNLOCK of the Handover Controller is sent while the unlock reference names a consignment in UNLOCKING, and clears the
reference. A DRIVE of the Climate Supervisor is sent only while its zone is below ALARM and the command it carries is
still the zone's command for the function of its destination. What becomes of a frame whose station or hatch has left
the table while it waited is the model's choice (log 22): a CHIME is sent; a HATCH UNLOCK of the Handover Controller
and a DRIVE of the Climate Supervisor are dropped. -/
def Obligations.FramesAreTestedBeforeSending : Prop :=
  (∀ (s : State) (f : Frame),
    (s.active = false → s.sendTest ⟨f, .site⟩ = (true, s))
    ∧ (∀ why, s.active = true → s.gateTest f = some why →
        s.sendTest ⟨f, .site⟩
          = (false, s.offerNotice [5, BitVec.ofNat 8 f.kind, BitVec.ofNat 8 f.dst, BitVec.ofNat 8 why.code, 1]))
    ∧ (s.active = true → s.gateTest f = none →
        (∀ h he, f.kind = 0x24 → f.payload.head? = some 1 → s.hatchByUnit f.dst = some (h, he) →
          s.sendTest ⟨f, .site⟩
            = (true, s.setHatchRuntime h { s.hatchRuntime h with manual := true, moved := false }))
        ∧ (f.kind ≠ 0x24 ∨ f.payload.head? ≠ some 1 ∨ s.hatchByUnit f.dst = none → s.sendTest ⟨f, .site⟩ = (true, s)))
    ∧ (∀ e z, s.stationByAddr f.dst = some e → e.zone = some z →
        s.sendTest ⟨f, .frs⟩ = (decide (s.fireState z = .quiet), s))
    ∧ (s.stationByAddr f.dst = none ∨ (∃ e, s.stationByAddr f.dst = some e ∧ e.zone = none) →
        s.sendTest ⟨f, .frs⟩ = (true, s))
    ∧ (∀ h he, f.kind = 0x24 → f.payload.head? = some 1 → s.hatchByUnit f.dst = some (h, he) →
        s.sendTest ⟨f, .hoc⟩
          = ((match (s.hatchRuntime h).unlockRef with
              | some n => decide ((s.consignment n).map Consignment.state = some .unlocking)
              | none => false),
             s.setHatchRuntime h { s.hatchRuntime h with unlockRef := none }))
    ∧ (f.kind = 0x24 → f.payload.head? = some 1 → s.hatchByUnit f.dst = none → s.sendTest ⟨f, .hoc⟩ = (false, s))
    ∧ (f.kind ≠ 0x24 ∨ f.payload.head? ≠ some 1 → s.sendTest ⟨f, .hoc⟩ = (true, s))
    ∧ (f.kind ≠ 0x22 → s.sendTest ⟨f, .cls⟩ = (true, s))
    ∧ (f.kind = 0x22 → s.stationByAddr f.dst = none ∨ (∃ e, s.stationByAddr f.dst = some e ∧ (e.zone = none
          ∨ e.kind ≠ .actuator ∨ (s.actuator e.index ≠ .humidifier ∧ s.actuator e.index ≠ .dehumidifier))) →
        s.sendTest ⟨f, .cls⟩ = (false, s))
    ∧ s.sendTest ⟨f, .csu⟩ = (true, s))
  ∧ (∀ (s : State) (f : Frame) (e : StationEntry) (z : Nat), f.kind = 0x22 → s.stationByAddr f.dst = some e →
    e.kind = .actuator → e.zone = some z →
    (s.sendTest ⟨f, .cls⟩).2 = s
    ∧ ((s.fireState z).latched = true → (s.sendTest ⟨f, .cls⟩).1 = false)
    ∧ ((s.fireState z).latched = false → s.actuator e.index = .humidifier →
        (s.sendTest ⟨f, .cls⟩).1 = decide (decide (f.payload.head? = some 1) = (s.climate z).humidifier))
    ∧ ((s.fireState z).latched = false → s.actuator e.index = .dehumidifier →
        (s.sendTest ⟨f, .cls⟩).1 = decide (decide (f.payload.head? = some 1) = (s.climate z).dehumidifier)))

/-! ### Responses (R10 to R12, R22 to R28) -/

/-- A missed response adds 1 to the station's count; the third in a row marks the station SILENT and raises
STATION_SILENT, and further ones change nothing more. A valid response sets the count to 0 and, for a SILENT station,
clears the mark and lowers STATION_SILENT. In the ACTIVE states the owner of the station is told of a change of the
mark. An entry written while its window was open, or no longer holding the polled address, is not counted against.
What counts against a rewritten entry is the model's choice (log 7). The owner told of SILENT: a probe loses its
values, PROBE_FAULT is lowered and its zone evaluated; a fire input takes the stage SILENT; a hatch unit has unit
silent set and its position NO_REPORT, the release gate of the inner zone is set anew, and an active consignment
aborts with HATCH_FAULT. Told of its clearing: NO_SAMPLE, with no evaluation; the stage NO_REPORT; unit silent
cleared, the position NO_REPORT, and the gate set anew (the position of a return is the model's choice, log 48). -/
def Obligations.MissedCountAndSilentMark : Prop :=  ∀ (s : State) (i a : Nat) (rewritten : Bool),
    (rewritten = true ∨ (s.station i).addr ≠ a → s.missedResponse i a rewritten = s ∧ s.answeredPoll i a rewritten = s)
    ∧ ((s.station i).addr = a →
        ((s.stationRuntime i).missed < 2 →
          s.missedResponse i a false
            = s.setStationRuntime i { s.stationRuntime i with missed := (s.stationRuntime i).missed + 1 })
        ∧ (2 ≤ (s.stationRuntime i).missed → (s.stationRuntime i).silent = false →
          let u := (s.setStationRuntime i { s.stationRuntime i with missed := 3, silent := true }).raiseCondition
            .stationSilent a
          s.missedResponse i a false = if s.active then u.tellSilent (s.station i) else u)
        ∧ (2 ≤ (s.stationRuntime i).missed → (s.stationRuntime i).silent = true →
          s.missedResponse i a false = s.setStationRuntime i { s.stationRuntime i with missed := 3 })
        ∧ ((s.stationRuntime i).silent = false →
          s.answeredPoll i a false = s.setStationRuntime i { s.stationRuntime i with missed := 0 })
        ∧ ((s.stationRuntime i).silent = true →
          let u := (s.setStationRuntime i { s.stationRuntime i with missed := 0, silent := false }).lower
            .stationSilent a
          s.answeredPoll i a false = if s.active then u.tellReturned (s.station i) else u))
    ∧ (∀ e : StationEntry,
      (e.kind = .probe →
        let u := s.setProbeState e.index .silent
        (s.probeState e.index ≠ .fault → s.tellSilent e = u.evaluateClimateOf e.zone)
        ∧ (s.probeState e.index = .fault → s.tellSilent e = (u.lower .probeFault e.addr).evaluateClimateOf e.zone)
        ∧ s.tellReturned e = s.setProbeState e.index .noSample)
      ∧ (e.kind = .fireInput →
        s.tellSilent e = s.setStage e .silent ∧ s.tellReturned e = s.setStage e .noReport
        ∧ ∀ new, new = Stage.silent ∨ new = .noReport →
          let old := s.inputStage e.index
          let u := s.setInputStage e.index new
          let v := if new = .silent ∧ old ≠ .fault then u.raiseCondition .detectorFault e.addr
            else if new = .noReport ∧ (old = .fault ∨ old = .silent) then u.lower .detectorFault e.addr else u
          (new = old → s.setStage e new = s)
          ∧ (new ≠ old → e.zone = none → s.setStage e new = v)
          ∧ (∀ z, new ≠ old → e.zone = some z →
            let w := v.recomputeUnmonitored z
            (s.inputKind e.index = .holdSwitch → s.fireState z = .releaseCountdown → s.setStage e new
              = State.regateRelease (if old = .high then w.setReleaseTimer z (w.releaseTimer z).trigger else w) z)
            ∧ (s.inputKind e.index = .holdSwitch → s.fireState z ≠ .releaseCountdown → s.setStage e new = w)
            ∧ (s.inputKind e.index = .releaseSwitch → s.setStage e new = w)
            ∧ (s.inputKind e.index = .smoke ∨ s.inputKind e.index = .heat ∨ s.inputKind e.index = .callPoint →
              s.setStage e new = w.evaluateFire z)))
      ∧ (e.kind = .hatchUnit →
        (s.hatchByUnit e.addr = none → s.tellSilent e = s ∧ s.tellReturned e = s)
        ∧ (∀ h he, s.hatchByUnit e.addr = some (h, he) →
          let u := (s.setHatchRuntime h { s.hatchRuntime h with unitSilent := true, position := .noReport }).regateRelease
            he.inner
          (s.activeOn h = none → s.tellSilent e = u)
          ∧ (∀ c, s.activeOn h = some c → (c.state = .aborting → s.tellSilent e = u)
              ∧ (c.state ≠ .aborting → s.tellSilent e = (u.begin.abort c .hatchFault).finish))
          ∧ s.tellReturned e = (s.setHatchRuntime h
              { s.hatchRuntime h with unitSilent := false, position := .noReport }).regateRelease he.inner))
      ∧ (e.kind = .reader ∨ e.kind = .courierTerminal ∨ e.kind = .actuator ∨ e.kind = .other →
        s.tellSilent e = s ∧ s.tellReturned e = s))

/-- A complete response of an open window closes it with one of four outcomes: a failed check, a source that is not
the polled station, a REQUEST, each a missed response with its alert; or a valid response, which is counted and
classified. The arbiter then chooses. A frame that begins on the field segment while no window is open is received and
discarded, whatever its check, and raises FRAME_ERRORS with source FIELD; it counts against no station. Bytes that
complete no frame wait beside those before them, with the mark of the window in which the first byte of their frame
arrived; of bytes that complete a frame and hold more, the frame is taken first, and the rest is then received in the
same way. That every byte given while the part is SENDING is received is the model's choice (log 37). So is that
frames an owner queues in the closing event join before the choice (log 46). -/
def Obligations.FieldFramesInAndOutOfTheWindow : Prop :=
  (∀ (s : State) (bytes : List Byte) (i a : Nat) (rewritten : Bool), s.fsp.rx = [] → IsComplete bytes →
    s.fsp.segment = .awaiting i a rewritten →
    let w := s.inWindow true
    (readFrame bytes = none →
      exec (.fieldResponse bytes) s
        = .next ((((w.raiseEvent .frameErrors 1).missedResponse i a rewritten).arbitrate).inWindow false))
    ∧ (∀ f, readFrame bytes = some f → f.src ≠ a →
      exec (.fieldResponse bytes) s
        = .next ((((w.raiseEvent .unknownReplySource a).missedResponse i a rewritten).arbitrate).inWindow false))
    ∧ (∀ f, readFrame bytes = some f → f.src = a → f.kind = 0x30 →
      exec (.fieldResponse bytes) s
        = .next ((((w.raiseEvent .foreignManagement a).missedResponse i a rewritten).arbitrate).inWindow false))
    ∧ (∀ f, readFrame bytes = some f → f.src = a → f.kind ≠ 0x30 →
      exec (.fieldResponse bytes) s
        = .next ((((w.answeredPoll i a rewritten).classifyResponse i f).arbitrate).inWindow false)))
  ∧ (∀ (s : State) (bytes : List Byte), s.fsp.rxInWindow = false →
    s.fsp.rx ≠ [] ∨ (∀ i a b, s.fsp.segment ≠ .awaiting i a b) → IsComplete (s.fsp.rx ++ bytes) →
    exec (.fieldFrameOutOfTurn bytes) s
      = .next (State.raiseEvent { s with fsp := { s.fsp with rx := [] } } .frameErrors 1))
  ∧ (∀ (s : State) (bytes : List Byte) (c : Instr), c = .fieldResponse bytes ∨ c = .fieldFrameOutOfTurn bytes →
    let held := s.fsp.rx ++ bytes
    let open_ := ∃ i a b, s.fsp.segment = .awaiting i a b
    let own : Bool := if s.fsp.rx = [] then decide (bytes ≠ []) && s.awaiting else s.fsp.rxInWindow
    (s.awaiting = true ↔ open_)
    ∧ (held.length < 4 ∨ held.length < 6 + nat1 held 3 →
      exec c s = .next { s with fsp := { s.fsp with rx := held, rxInWindow := own } })
    ∧ (∀ frame rest, held = frame ++ rest → IsComplete frame →
      let u := { s with fsp := { s.fsp with rx := rest, rxInWindow := own } }
      let goesOn (v : State) (b : Bool) : Prop := exec c s = exec (.fieldResponse []) (v.inWindow b)
      (own = false ∨ ¬ open_ → goesOn (u.raiseEvent .frameErrors 1) (decide (rest ≠ []) && s.awaiting))
      ∧ (∀ i a rewritten, own = true → s.fsp.segment = .awaiting i a rewritten →
        (readFrame frame = none → goesOn ((u.raiseEvent .frameErrors 1).missedResponse i a rewritten).arbitrate false)
        ∧ (∀ f, readFrame frame = some f →
          (f.src ≠ a → goesOn ((u.raiseEvent .unknownReplySource a).missedResponse i a rewritten).arbitrate false)
          ∧ (f.src = a → f.kind = 0x30 →
            goesOn ((u.raiseEvent .foreignManagement a).missedResponse i a rewritten).arbitrate false)
          ∧ (f.src = a → f.kind ≠ 0x30 →
            goesOn ((u.answeredPoll i a rewritten).classifyResponse i f).arbitrate false)))))

/-- A valid response is classified: an IDLE response is dropped; in CONFIG every other one is forwarded unchanged; in the
ACTIVE states a response of a consumed kind is only dispatched, and any other is first forwarded under its station's policy
and then dispatched. The command that takes a dispatched response is handed on. Dispatch by the station's kind and role, the
frame's kind and a SCAN's intent (the first payload byte: TAKE 0, RETURN 1, HANDOVER 2, RECEIVE 3); a frame whose kind is not
listed for its station is not dispatched. -/
def Obligations.ResponsesAreForwardedAndDispatched : Prop :=
  (∀ (s : State) (i : Nat) (f : Frame),
    (f.kind = 0x02 → s.classifyResponse i f = s)
    ∧ (f.kind ≠ 0x02 → s.active = false → s.classifyResponse i f = s.offerSite ⟨f, .forwarded⟩)
    ∧ (f.kind ≠ 0x02 → s.active = true → (s.station i).addr ≠ 0 →
        (f.kind ∈ [0x13, 0x14, 0x15, 0x16, 0x17, 0x18] →
          s.classifyResponse i f = s.dispatch (s.station i) i f)
        ∧ (f.kind ∉ [0x13, 0x14, 0x15, 0x16, 0x17, 0x18] →
          s.classifyResponse i f = (s.forwardByPolicy i (s.station i) f).dispatch (s.station i) i f))
    ∧ (∀ c, State.dispatchCommand (s.station i) i f = some c →
        s.dispatch (s.station i) i f = { s with handed := s.handed ++ [c] })
    ∧ (State.dispatchCommand (s.station i) i f = none → s.dispatch (s.station i) i f = s))
  ∧ (∀ (e : StationEntry) (i dst : Nat) (p : List Byte),
    (∀ kind, e.kind = .probe →
      State.dispatchCommand e i ⟨dst, e.addr, kind, p⟩ = if kind = 0x10 then some (.sample i p) else none)
    ∧ (∀ kind, e.kind = .fireInput →
      State.dispatchCommand e i ⟨dst, e.addr, kind, p⟩ = if kind = 0x11 then some (.stage i p) else none)
    ∧ (∀ kind, e.kind = .hatchUnit →
      State.dispatchCommand e i ⟨dst, e.addr, kind, p⟩ = if kind = 0x12 then some (.position i p) else none)
    ∧ (∀ kind, e.kind = .actuator ∨ e.kind = .other → State.dispatchCommand e i ⟨dst, e.addr, kind, p⟩ = none)
    ∧ (e.kind = .courierTerminal ∨ (e.kind = .reader ∧ e.role = .witness) →
        State.dispatchCommand e i ⟨dst, e.addr, 0x14, p⟩ = some (.arrive i p)
        ∧ State.dispatchCommand e i ⟨dst, e.addr, 0x15, p⟩ = some (.caseReport i p)
        ∧ State.dispatchCommand e i ⟨dst, e.addr, 0x16, p⟩ = some (.accept i p)
        ∧ State.dispatchCommand e i ⟨dst, e.addr, 0x17, p⟩ = some (.confirm i p)
        ∧ State.dispatchCommand e i ⟨dst, e.addr, 0x18, p⟩ = some (.doneStep i p))
    ∧ (∀ kind, e.kind = .courierTerminal ∨ e.kind = .reader → kind ∉ [0x13, 0x14, 0x15, 0x16, 0x17, 0x18] →
        State.dispatchCommand e i ⟨dst, e.addr, kind, p⟩ = none)
    ∧ (∀ kind, e.kind = .reader → e.role ≠ .witness → kind ≠ 0x13 →
        State.dispatchCommand e i ⟨dst, e.addr, kind, p⟩ = none)
    ∧ (e.kind = .reader → e.role = .door →
        State.dispatchCommand e i ⟨dst, e.addr, 0x13, p⟩ =
          match p.head? with
          | some 1 => some (.returnScan i p)
          | some 2 | some 3 => some (.wrongStationScan i p)
          | _ => some (.takeScan i p))
    ∧ (e.kind = .reader → e.role = .witness →
        State.dispatchCommand e i ⟨dst, e.addr, 0x13, p⟩ =
          if p.head? = some 3 then some (.scanReceive i p) else some (.wrongStationScan i p))
    ∧ (e.kind = .reader → e.role = .none →
        State.dispatchCommand e i ⟨dst, e.addr, 0x13, p⟩ = some (.wrongStationScan i p))
    ∧ (e.kind = .courierTerminal →
        State.dispatchCommand e i ⟨dst, e.addr, 0x13, p⟩ =
          if p.head? = some 2 then some (.scanHandover i p) else some (.wrongStationScan i p)))

/-- The forwarding policies: ALL offers every response, NONE offers none, and CHANGES offers a changed one, storing its length
and its first 16 bytes where the site queue has room. A response is changed when none is stored, when the lengths differ, when
either length is above 16, or when the bytes differ. -/
def Obligations.ForwardingPolicies : Prop :=  ∀ (s : State) (i : Nat) (e : StationEntry) (f : Frame),
    (e.policy = .all → s.forwardByPolicy i e f = s.offerSite ⟨f, .forwarded⟩)
    ∧ (e.policy = .none → s.forwardByPolicy i e f = s)
    ∧ (e.policy = .changes → ∀ old, (s.stationRuntime i).lastForwarded = some old →
        old.length = f.payload.length → old.length ≤ 16 → old.bytes = f.payload → s.forwardByPolicy i e f = s)
    ∧ (e.policy = .changes →
        ((s.stationRuntime i).lastForwarded = none
          ∨ ∃ old, (s.stationRuntime i).lastForwarded = some old
              ∧ (old.length ≠ f.payload.length ∨ 16 < old.length ∨ old.bytes ≠ f.payload)) →
        (s.slp.queue.length < 48 →
          s.forwardByPolicy i e f
            = (s.setStationRuntime i { s.stationRuntime i with
                lastForwarded := some ⟨f.payload.length, f.payload.take 16⟩ }).offerSite ⟨f, .forwarded⟩)
        ∧ (48 ≤ s.slp.queue.length → s.forwardByPolicy i e f = s.offerSite ⟨f, .forwarded⟩))

/-! ### Time (R35 to R45) -/

/-- The interval timer operations: a start is always obeyed and leaves the gate; a trigger reloads a timer that is not running
or is retrigger-enabled; a stop clears running, remaining and expiry-pending; an advance counts only a running, ungated timer,
and at expiry a single-cycle timer stops at 0 and a continuous one is reloaded. -/
def Obligations.IntervalTimerOperations : Prop :=  ∀ t : Timer,
    (∀ load c r, t.start load c r = ⟨load, load, true, t.gated, c, r, false⟩)
    ∧ (t.running = false → t.trigger = { t with remaining := t.load, running := true })
    ∧ (t.running = true → t.retrigger = true → t.trigger = { t with remaining := t.load })
    ∧ (t.running = true → t.retrigger = false → t.trigger = t)
    ∧ t.stop = { t with running := false, remaining := 0, pending := false }
    ∧ (∀ g, t.setGate g = { t with gated := g })
    ∧ (t.running = false ∨ t.gated = true → t.advance = t ∧ t.expires = false)
    ∧ (t.running = true → t.gated = false →
        (1 < t.remaining → t.advance = { t with remaining := t.remaining - 1 } ∧ t.expires = false)
        ∧ (t.remaining ≤ 1 → t.continuous = false →
          t.advance = { t with remaining := 0, running := false, pending := true } ∧ t.expires = true)
        ∧ (t.remaining ≤ 1 → t.continuous = true →
          t.advance = { t with remaining := t.load, pending := true } ∧ t.expires = true))

/-- SECOND_TICK below the 60th: the second count rises by 1, every timer that counts seconds is advanced and its expiry is
handed to its owner; no job block is otherwise told, and nothing else changes. The order of the expiries of one tick, which
the spec leaves open, is the model's choice (log 9). MINUTE_TICK is the second tick at which the count returns to 0: the
minute clock rises by 1, wrapping in 32 bits, and in the ACTIVE states the Climate Supervisor, the Custody Unit and the
Handover Controller then take the minute, in CONFIG none of them. At any other second count no minute tick falls (the model's
choice, log 5). Both orders of the owners are given (log 8). That the timers of such a tick are advanced, and their expiries
handed on, before its minute work is the model's choice (log 39). -/
def Obligations.SecondAndMinuteTicks : Prop :=
  (∀ (s : State) (order : OwnerOrder), s.tmb.secondCount < 59 →
    ∃ t, exec (.secondTick order) s = .next t ∧ SecondPassed s t (s.tmb.secondCount + 1) s.tmb.minuteClock)
  ∧ (∀ s : State,
    (s.tmb.secondCount = 59 →
      ∃ u, SecondPassed s u 0 (s.tmb.minuteClock + 1)
        ∧ (∀ order, exec (.minuteTick order) s = exec (.secondTick order) s)
        ∧ (s.active = false → ∀ order, exec (.minuteTick order) s = .next u)
        ∧ exec (.minuteTick .climateFirst) s = .next u.climateMinute.custodyMinute.handoverMinute
        ∧ exec (.minuteTick .climateLast) s = .next u.custodyMinute.handoverMinute.climateMinute)
    ∧ (s.tmb.secondCount < 59 → ∀ order, exec (.minuteTick order) s = .next s))

/-! ### Climate (R46 to R69) -/

/-- SAMPLE: a good one makes the probe VALID with its calibrated values, each sum taken inside its range, lowers PROBE_FAULT
if the probe was in FAULT, and evaluates the zone; a faulty one makes a probe not yet in FAULT a FAULT, raises PROBE_FAULT
with the station's address and evaluates the zone; a faulty one of a probe in FAULT changes nothing. -/
def Obligations.SampleSetsTheProbe : Prop :=  ∀ (s : State) (entry : Nat) (p : List Byte), s.serves entry → (s.station entry).kind = .probe →
    let e := s.station entry
    let s0 := s.takeHanded (.sample entry p)
    let good := p.length = 5 ∧ nat1 p 4 = 0 ∧ nat2 p 0 ≤ 1000 ∧ -400 ≤ signed2 p 2 ∧ signed2 p 2 ≤ 850
    let rh : Int := min 1000 (max 0 ((nat2 p 0 : Int) + (s.probeCal e.index).rh))
    let t : Int := min 850 (max (-400) (signed2 p 2 + (s.probeCal e.index).t))
    (good → s.probeState e.index ≠ .fault →
      exec (.sample entry p) s
        = .next ((s0.setProbeState e.index (.valid rh.toNat t)).evaluateClimateOf e.zone))
    ∧ (good → s.probeState e.index = .fault →
      exec (.sample entry p) s
        = .next (((s0.setProbeState e.index (.valid rh.toNat t)).lower .probeFault e.addr).evaluateClimateOf e.zone))
    ∧ (¬ good → s.probeState e.index ≠ .fault →
      exec (.sample entry p) s
        = .next (((s0.setProbeState e.index .fault).raiseCondition .probeFault e.addr).evaluateClimateOf e.zone))
    ∧ (¬ good → s.probeState e.index = .fault → exec (.sample entry p) s = .next s0)

/-- The values an evaluation of a zone reads are the calibrated values of its VALID probes, one for each PROBE station entry
of the zone whose probe is VALID. The zone reading: the largest calibrated RH, the mean calibrated T rounded toward minus
infinity, and the dew point, which is the zone T less floor((1000 - RH) / 5) and lies within -600..850 and at or below the
zone T. -/
def Obligations.ZoneReadingAndDewPoint : Prop :=  (readingOf [] = none)
  ∧ (∀ vals : List (Nat × Int), vals ≠ [] → (∀ v ∈ vals, v.1 ≤ 1000) → ∃ r, readingOf vals = some r
      ∧ (∀ v ∈ vals, v.1 ≤ r.rh) ∧ (∃ v ∈ vals, r.rh = v.1)
      ∧ r.t * vals.length ≤ (vals.map Prod.snd).sum ∧ (vals.map Prod.snd).sum < (r.t + 1) * vals.length
      ∧ r.td = r.t - Int.fdiv (1000 - (r.rh : Int)) 5)
  ∧ (∀ (rh : Nat) (t : Int), rh ≤ 1000 → -400 ≤ t → t ≤ 850 →
      dewPoint rh t ≤ t ∧ -600 ≤ dewPoint rh t ∧ dewPoint rh t ≤ 850 ∧ (996 ≤ rh → dewPoint rh t = t))
  ∧ (∀ (s : State) (z : Nat),
      let probes := (s.stationList.map Prod.snd).filter (fun e => decide (e.kind = .probe ∧ e.zone = some z))
      s.probesOf z = probes
      ∧ s.validValues z = probes.filterMap (fun e =>
          match s.probeState e.index with
          | .valid rh t => some (rh, t)
          | .noSample | .fault | .silent => none))

/-- The bands of a reading against a profile, the first line that holds: with every limit moved inside by `h` and `th`; the
raw band moves none, the band of a fall moves them by the hysteresis. An evaluation of a climate record: without a VALID probe
it becomes NO_DATA, or is left; with one the reading and the probe count are kept, a zone in NO_DATA takes the raw band at
once, a zone rises to the raw band at the persistence-th evaluation in a row that found a worse one, and falls at once to the
held band where that is less severe. Exposure, EXPOSED and the commands are left. -/
def Obligations.EvaluationMovesTheClimateState : Prop :=
  (∀ (p : Profile) (rh : Nat) (t td : Int),
    rawBand p ⟨rh, t, td⟩ = bandInside p 0 0 ⟨rh, t, td⟩ ∧ heldBand p ⟨rh, t, td⟩ = bandInside p p.hyst p.tHyst ⟨rh, t, td⟩
    ∧ (∀ h th : Nat,
      let v : Int := rh
      let critical := p.critHigh - h ≤ v ∨ v ≤ p.critLow + h
      let excursion := p.high - h < v ∨ v < p.low + h ∨ p.tHigh - th < t ∨ t < p.tLow + th
      let warning := p.high - p.margin - h < v ∨ v < p.low + p.margin + h
      (critical → bandInside p h th ⟨rh, t, td⟩ = .critical)
      ∧ (¬ critical → excursion → bandInside p h th ⟨rh, t, td⟩ = .excursion)
      ∧ (¬ critical → ¬ excursion → warning → bandInside p h th ⟨rh, t, td⟩ = .warning)
      ∧ (¬ critical → ¬ excursion → ¬ warning → bandInside p h th ⟨rh, t, td⟩ = .normal)))
  ∧ (∀ (p : Profile) (c : ClimateRec) (vals : List (Nat × Int)),
    (vals = [] → c.state = .noData → evaluateRecord p c vals = c)
    ∧ (vals = [] → c.state ≠ .noData →
        evaluateRecord p c vals = { c with state := .noData, reading := none, validCount := 0, candidate := 0 })
    ∧ (∀ r, readingOf vals = some r →
        let c1 := { c with reading := some r, validCount := vals.length }
        let b := rawBand p r
        let bh := heldBand p r
        (c.state = .noData → evaluateRecord p c vals = { c1 with state := b, candidate := 0 })
        ∧ (c.state ≠ .noData → c.state.severity < b.severity →
            (c.candidate + 1 = p.persistence → evaluateRecord p c vals = { c1 with state := b, candidate := 0 })
            ∧ (c.candidate + 1 ≠ p.persistence →
                evaluateRecord p c vals = { c1 with candidate := c.candidate + 1 }))
        ∧ (c.state ≠ .noData → b = c.state → evaluateRecord p c vals = { c1 with candidate := 0 })
        ∧ (c.state ≠ .noData → b.severity < c.state.severity →
            (bh.severity < c.state.severity → evaluateRecord p c vals = { c1 with state := bh, candidate := 0 })
            ∧ (c.state.severity ≤ bh.severity → evaluateRecord p c vals = { c1 with candidate := 0 }))))

/-- An evaluation of a zone hands on in order: the ZONE notice of a change of state, the lowering of the alert of the state
left, the raising of that of the state entered (ZONE_NO_DATA only for a zone with a PROBE station), the report to the Handover
Controller, and in ACTIVE_AUTONOMOUS the fallback drive. The ZONE notice carries the change, the zone's states, its reading if
it has one, the probe count, the exposure and the flags EXPOSED and silenced in 24 bytes; that its other fields are zero is the
model's reading (log 30). -/
def Obligations.EvaluationReportsInOrder : Prop :=  ClimateState.alertKind .noData = some .zoneNoData ∧ ClimateState.alertKind .normal = none
  ∧ ClimateState.alertKind .warning = some .climateWarning ∧ ClimateState.alertKind .excursion = some .climateExcursion
  ∧ ClimateState.alertKind .critical = some .climateCritical
  ∧ (∀ (s : State) (z : Nat) (before : ClimateState),
    let c := s.climate z
    s.climateNotice z before
        = [1, byteOf z, 0, byteOf before.code, byteOf c.state.code, byteOf c.state.code, byteOf (s.fireState z).code, 0, 0, 0, 0,
            if (s.fire z).silenced then 1 else 0, 0]
          ++ (match c.reading with
              | some r => [1] ++ enc2 r.rh ++ encSigned2 r.t ++ encSigned2 r.td
              | none => List.replicate 7 0)
          ++ [byteOf c.validCount, byteOf (c.exposure / 256), byteOf c.exposure, if c.exposed then 1 else 0]
    ∧ (s.climateNotice z before).length = 24)
  ∧ ∀ (s : State) (z : Nat),
    let c := s.climate z
    let c' := evaluateRecord (s.profile (s.zone z).profile) c (s.validValues z)
    let s1 := s.setClimate z c'
    let lowered (u : State) : State := c.state.alertKind.elim u (fun k => u.lower k z)
    let raised (u : State) : State :=
      if c'.state = .noData ∧ s.probesOf z = [] then u else c'.state.alertKind.elim u (fun k => u.raiseCondition k z)
    let s2 := if c.state = c'.state then s1 else raised (lowered (s1.offerNotice (s1.climateNotice z c.state)))
    let s3 := { s2 with handed := s2.handed ++ [.zoneReport z .evaluated] }
    s.evaluateClimate z = if s.mga.partState = .autonomous then s3.computeFallback z else s3

/-- The minute tick at the Climate Supervisor: a zone in EXCURSION or CRITICAL adds the excess of its zone RH over its
profile, the sum staying within 65535, and is then tested for EXPOSED; no other zone's record changes, nor anything else but by
the alerts. In CONFIG nothing happens. The test: at a nonzero limit that the exposure has reached, a zone not yet EXPOSED is
marked so and ZONE_EXPOSED is raised with the zone as source; otherwise nothing changes. After the tick ZONE_EXPOSED is present
for the zones it was present for and those newly EXPOSED. That zones are taken in rising order is the model's choice
(log 9). -/
def Obligations.ExposureGrowsByTheExcess : Prop :=  ∀ s : State,
    (∀ z,
      let c := s.climate z
      let limit := (s.zone z).exposureLimit
      (limit ≠ 0 → limit ≤ c.exposure → c.exposed = false →
        s.testExposed z = (s.setClimate z { c with exposed := true }).raiseCondition .zoneExposed z)
      ∧ (limit = 0 ∨ c.exposure < limit ∨ c.exposed = true → s.testExposed z = s))
    ∧ (s.active = false → s.climateMinute = s)
    ∧ (s.active = true →
      (∃ cls, Reported { s with cls := cls } s.climateMinute ∧ cls.probes = s.cls.probes ∧ cls.profiles = s.cls.profiles
        ∧ cls.zones = s.cls.zones ∧ cls.probeState = s.cls.probeState)
      ∧ (∀ z, z < 16 →
        let c := s.climate z
        let p := s.profile (s.zone z).profile
        let limit := (s.zone z).exposureLimit
        let raised := z ∈ (s.climateMinute.alertRec AlertKind.zoneExposed.code).present
        let before := z ∈ (s.alertRec AlertKind.zoneExposed.code).present
        (∀ r, c.state = .excursion ∨ c.state = .critical → c.reading = some r →
          let sum := min 65535 (c.exposure + (if p.high < r.rh then r.rh - p.high else if r.rh < p.low then p.low - r.rh
            else 0))
          s.exposeZone z = (s.setClimate z { c with exposure := sum }).testExposed z
          ∧ s.climateMinute.climate z
            = { c with exposure := sum, exposed := c.exposed || (decide (limit ≠ 0) && decide (limit ≤ sum)) }
          ∧ (raised ↔ before ∨ (c.exposed = false ∧ limit ≠ 0 ∧ limit ≤ sum)))
        ∧ (c.state ≠ .excursion → c.state ≠ .critical →
          s.exposeZone z = s ∧ s.climateMinute.climate z = c ∧ (raised ↔ before)))
      ∧ (∀ z, 16 ≤ z → s.climateMinute.climate z = s.climate z)
      ∧ s.climateMinute = (List.range 16).foldl State.exposeZone s)

/-- ZONE PROFILE, accepted in the ACTIVE states: the profile is stored, the candidate counter set to 0, the zone evaluated,
and the REPLY, DONE with the climate state before and after, follows. RANGE and NOT_ACTIVE change nothing; that RANGE is
tested first is the model's choice (log 33). -/
def Obligations.ZoneProfileEvaluatesTheZone : Prop :=  ∀ (s : State) (tag : Byte) (z profile : Nat), s.ready →
    let s0 := s.requested (.zoneProfile tag z profile)
    (z ≤ 15 → profile ≤ 3 → s.active = true →
      let s1 := s0.setZone z { s0.zone z with profile := profile }
      let s2 := s1.setClimate z { s1.climate z with candidate := 0 }
      let s3 := s2.evaluateClimate z
      exec (.zoneProfile tag z profile) s
        = .next (s3.reply 0x10 tag .done [byteOf (s.climate z).state.code, byteOf (s3.climate z).state.code]))
    ∧ (z ≤ 15 → profile ≤ 3 → s.active = false →
      exec (.zoneProfile tag z profile) s = .next (s0.replyRefused 0x10 tag .notActive []))
    ∧ (15 < z ∨ 3 < profile → exec (.zoneProfile tag z profile) s = .next (s0.reply 0x10 tag .range []))

/-- ZONE CLEAR EXPOSURE, accepted in every part state: the exposure becomes 0, EXPOSED is cleared and ZONE_EXPOSED lowered if
it was present, and the REPLY, DONE, carries the exposure and the flag as they were; a zone outside 0..15 is answered RANGE.
-/
def Obligations.ZoneClearExposureClearsTheAccount : Prop :=  ∀ (s : State) (tag : Byte) (z : Nat), s.ready →
    let s0 := s.requested (.zoneClearExposure tag z)
    let c := s.climate z
    (z ≤ 15 →
      exec (.zoneClearExposure tag z) s
        = .next (((s0.setClimate z { c with exposure := 0, exposed := false }).lower .zoneExposed z).reply 0x11 tag .done
            [byteOf (c.exposure / 256), byteOf c.exposure, if c.exposed then 1 else 0]))
    ∧ (15 < z → exec (.zoneClearExposure tag z) s = .next (s0.reply 0x11 tag .range []))

/-! ### Fire (R70 to R97) -/

/-- STAGE: a stage that repeats the input's stage changes nothing; a change is stored, moves DETECTOR_FAULT with entry
to and exit from FAULT and SILENT, recomputes UNMONITORED, and then acts by the input's kind: a hold switch of a zone
in RELEASE_COUNTDOWN triggers the release timer when it leaves HIGH and sets its gate, a release switch that becomes
HIGH starts the countdown of a fitted zone in ALARM, and a SMOKE, HEAT or CALL_POINT input evaluates the zone. The
UNMONITORED flag is SET while no SMOKE or HEAT input of the zone is at CLEAR, LOW or HIGH; a change moves
ZONE_UNMONITORED, raised only for a zone that has a station, and is handed to the Handover Controller. The release
gate holds while a hold switch of the zone is HIGH or the hatch whose inner zone it is is not known to be closed; the
release timer's gate is set to it in RELEASE_COUNTDOWN and is otherwise left. That an expiry already handed is still
taken after a trigger (log 47), and that a STAGE taken while its station is SILENT is served like any other (log 51),
are the model's choices. -/
def Obligations.StagesUnmonitoredAndReleaseGate : Prop :=
  (∀ (s : State) (entry : Nat) (p : List Byte), s.serves entry → (s.station entry).kind = .fireInput →
    let e := s.station entry
    let s0 := s.takeHanded (.stage entry p)
    let old := s.inputStage e.index
    let new : Stage := if p = [0] then .clear else if p = [1] then .low else if p = [2] then .high else .fault
    let s1 := s0.setInputStage e.index new
    let s2 :=
      if (new = .fault ∨ new = .silent) ∧ ¬ (old = .fault ∨ old = .silent) then s1.raiseCondition .detectorFault e.addr
      else if (old = .fault ∨ old = .silent) ∧ ¬ (new = .fault ∨ new = .silent) then s1.lower .detectorFault e.addr
      else s1
    (new = old → exec (.stage entry p) s = .next s0)
    ∧ (new ≠ old → e.zone = none → exec (.stage entry p) s = .next s2)
    ∧ (∀ z, new ≠ old → e.zone = some z →
        let s3 := s2.recomputeUnmonitored z
        (s.inputKind e.index = .holdSwitch →
          (s.fireState z ≠ .releaseCountdown → exec (.stage entry p) s = .next s3)
          ∧ (s.fireState z = .releaseCountdown → old = .high →
              exec (.stage entry p) s = .next ((s3.setReleaseTimer z (s3.releaseTimer z).trigger).regateRelease z))
          ∧ (s.fireState z = .releaseCountdown → old ≠ .high →
              exec (.stage entry p) s = .next (s3.regateRelease z)))
        ∧ (s.inputKind e.index = .releaseSwitch →
          (new = .high → s.fireState z = .alarm → (s.zone z).fitted = true →
            exec (.stage entry p) s = .next (s3.enterCountdown z))
          ∧ (new ≠ .high ∨ s.fireState z ≠ .alarm ∨ (s.zone z).fitted = false →
            exec (.stage entry p) s = .next s3))
        ∧ (s.inputKind e.index = .smoke ∨ s.inputKind e.index = .heat ∨ s.inputKind e.index = .callPoint →
          exec (.stage entry p) s = .next (s3.evaluateFire z))))
  ∧ (∀ (s : State) (z : Nat),
    let monitored := ∃ e ∈ s.inputsOf z (fun k => k = .smoke || k = .heat),
      s.inputStage e.index = .clear ∨ s.inputStage e.index = .low ∨ s.inputStage e.index = .high
    let setTo (u : Bool) := s.setFire z { s.fire z with unmonitored := u }
    let gate := (∃ e ∈ s.inputsOf z (fun k => k = .holdSwitch), s.inputStage e.index = .high)
      ∨ ∃ h he, s.hatchByInner z = some (h, he)
          ∧ ¬ ((s.hatchRuntime h).position = .closedLocked ∧ (s.hatchRuntime h).unitSilent = false)
    (monitored → (s.fire z).unmonitored = false → s.recomputeUnmonitored z = s)
    ∧ (¬ monitored → (s.fire z).unmonitored = true → s.recomputeUnmonitored z = s)
    ∧ (¬ monitored → (s.fire z).unmonitored = false →
        s.recomputeUnmonitored z
          = (if ∃ p ∈ s.stationList, p.2.zone = some z then (setTo true).raiseCondition .zoneUnmonitored z
             else setTo true).hand (.zoneReport z (.unmonitoredChanged true)))
    ∧ (monitored → (s.fire z).unmonitored = true →
        s.recomputeUnmonitored z
          = ((setTo false).lower .zoneUnmonitored z).hand (.zoneReport z (.unmonitoredChanged false)))
    ∧ (s.fireState z = .releaseCountdown → gate →
        s.regateRelease z = s.setReleaseTimer z { s.releaseTimer z with gated := true })
    ∧ (s.fireState z = .releaseCountdown → ¬ gate →
        s.regateRelease z = s.setReleaseTimer z { s.releaseTimer z with gated := false })
    ∧ (s.fireState z ≠ .releaseCountdown → s.regateRelease z = s))

/-- An evaluation of a zone: in a latched state it changes nothing; below ALARM the first alarm condition in the order HEAT,
CALL_POINT, COINCIDENCE, SINGLE puts the zone in ALARM with that cause; otherwise a LOW SMOKE input or a coupled source makes
a QUIET zone PRE_ALARM, and their absence makes a PRE_ALARM zone QUIET, each change giving its sounder pattern, its ZONE
notice, its alert and its report, in that order. The evaluation a coupling causes is an event of its own in the ACTIVE states.
The ZONE notice of a fire change carries the change, the zone's states, its alarm cause and reading where it has them, the
coupled-source set, silenced and UNMONITORED in 24 bytes; that its other fields are zero is the model's reading (log 30). -/
def Obligations.FireEvaluationDecides : Prop :=  ∀ (s : State) (z : Nat),
    let high (k : InputKind) := ∃ e ∈ s.inputsOf z (fun j => j = k), s.inputStage e.index = .high
    let smoky := ((s.inputsOf z (fun j => j = .smoke)).filter
      (fun e => s.inputStage e.index = .low || s.inputStage e.index = .high)).length
    let coincident := 2 ≤ (s.zone z).coincidence ∧ (s.zone z).coincidence ≤ smoky
    let early := (∃ e ∈ s.inputsOf z (fun j => j = .smoke), s.inputStage e.index = .low)
      ∨ (s.fire z).coupledSources ≠ []
    let changed (new : FireState) (pattern : Byte) (u : State) : State :=
      let v := (u.setFire z { u.fire z with state := new, silenced := false }).queueUrgentAll (u.soundersOf z) 0x23
        [pattern, 0]
      v.offerNotice (v.fireNotice z (s.fireState z))
    ((s.fireState z).latched = true → s.evaluateFire z = s)
    ∧ ((s.fireState z).latched = false →
        (high .heat → s.evaluateFire z = s.enterAlarm z .heat)
        ∧ (¬ high .heat → high .callPoint → s.evaluateFire z = s.enterAlarm z .callPoint)
        ∧ (¬ high .heat → ¬ high .callPoint → coincident → s.evaluateFire z = s.enterAlarm z .coincidence)
        ∧ (¬ high .heat → ¬ high .callPoint → ¬ coincident → high .smoke → s.evaluateFire z = s.enterAlarm z .single)
        ∧ (¬ high .heat → ¬ high .callPoint → ¬ coincident → ¬ high .smoke →
            (s.fireState z = .quiet → early →
              s.evaluateFire z = ((changed .preAlarm 1 s).raiseCondition .firePreAlarm z).hand
                (.zoneReport z (.fireChanged .preAlarm)))
            ∧ (s.fireState z = .preAlarm → ¬ early →
              s.evaluateFire z = ((changed .quiet 0 s).lower .firePreAlarm z).hand
                (.zoneReport z (.fireChanged .quiet)))
            ∧ (s.fireState z = .quiet → ¬ early → s.evaluateFire z = s)
            ∧ (s.fireState z = .preAlarm → early → s.evaluateFire z = s)))
    ∧ (Instr.coupledZoneEvaluation z ∈ s.handed →
        exec (.coupledZoneEvaluation z) s
          = .next (if s.active then (s.takeHanded (.coupledZoneEvaluation z)).evaluateFire z
              else s.takeHanded (.coupledZoneEvaluation z)))
    ∧ (∀ before : FireState,
        let f := s.fire z
        let c := s.climate z
        s.fireNotice z before
            = [1, byteOf z, 1, byteOf before.code, byteOf f.state.code, byteOf c.state.code, byteOf f.state.code]
              ++ (match f.cause with
                  | some k => [1, byteOf k.code]
                  | none => [0, 0])
              ++ encZoneSet f.coupledSources ++ [if f.silenced then 1 else 0, if f.unmonitored then 1 else 0]
              ++ (match c.reading with
                  | some r => [1] ++ enc2 r.rh ++ encSigned2 r.t ++ encSigned2 r.td
                  | none => List.replicate 7 0)
              ++ [0, 0, 0, 0]
        ∧ (s.fireNotice z before).length = 24)
    ∧ (∀ zones : List Nat, zones.Nodup →
        ∃ n : Nat, encZoneSet zones = enc2 n ∧ ∀ y, n.testBit y = decide (y ∈ zones))

/-- Entry to ALARM: the state, the cause and silenced; urgent DRIVE OFF to the humidifiers and dehumidifiers and SOUND
CONTINUOUS to the sounders; the ZONE notice; FIRE_PRE_ALARM lowered and FIRE_ALARM raised; both fallback commands OFF
and the Handover Controller told; the countdown, when suppression is fitted, by auto release with cause HEAT or
COINCIDENCE or by a HIGH release switch; and the zone added to the coupled-source sets of its coupled list, each zone
whose set changed being evaluated as an event of its own. Entry to RELEASE_COUNTDOWN: the timer started with the
release delay and gated; DRIVE CLOSE to the dampers and SOUND PULSE_FAST; the notice; the alert; the report. An expiry
of a release timer is acknowledged, and a zone in RELEASE_COUNTDOWN is RELEASED, its timer stopped and ungated:
RELEASE with the zone number to its suppression actuators and SOUND CONTINUOUS to its sounders, urgent; the ZONE
notice; RELEASE_COUNTDOWN lowered and RELEASED raised; the AGENT sweep asked for; the Handover Controller told. In any
other state the expiry has no further effect. That the expiry acts although the timer has been started, triggered or
gated since it was handed, and that the entry to RELEASED then stops and ungates it, are the model's choices (log 47).
-/
def Obligations.AlarmCountdownAndRelease : Prop :=
  (∀ (s : State) (z : Nat),
    (∀ cause,
      let a := s.setFire z { s.fire z with state := .alarm, cause := some cause, silenced := false }
      let b := (a.queueUrgentAll (a.actuatorsOf z (fun f => f = .humidifier || f = .dehumidifier)) 0x22 [0]
        ).queueUrgentAll (a.soundersOf z) 0x23 [3, 0]
      let c := b.offerNotice (b.fireNotice z (s.fireState z))
      let d := if s.fireState z = .preAlarm then c.lower .firePreAlarm z else c
      let e := d.raiseCondition .fireAlarm z
      let f := (e.setClimate z { e.climate z with humidifier := false, dehumidifier := false }).hand
        (.zoneReport z (.fireChanged .alarm))
      let counts := (s.zone z).fitted = true
        ∧ (((s.zone z).autoRelease = true ∧ (cause = .heat ∨ cause = .coincidence))
            ∨ ∃ i ∈ s.inputsOf z (fun j => j = .releaseSwitch), s.inputStage i.index = .high)
      let g := if counts then f.enterCountdown z else f
      s.enterAlarm z cause = ((s.zone z).coupled.take (s.zone z).coupledCount).foldl (fun u t =>
        if z ∈ (u.fire t).coupledSources then u
        else (u.setFire t { u.fire t with coupledSources := insertSorted (u.fire t).coupledSources z }).hand
          (.coupledZoneEvaluation t)) g)
    ∧ (let a := s.setFire z { s.fire z with state := .releaseCountdown, silenced := false }
       let b := (a.setReleaseTimer z ((s.releaseTimer z).start (s.zone z).releaseDelay false true)).regateRelease z
       let c := (b.queueUrgentAll (b.actuatorsOf z (fun f => f = .damper)) 0x22 [2]
        ).queueUrgentAll (b.soundersOf z) 0x23 [2, 0]
       s.enterCountdown z = ((c.offerNotice (c.fireNotice z (s.fireState z))).raiseCondition .releaseCountdown z).hand
        (.zoneReport z (.fireChanged .releaseCountdown))))
  ∧ (∀ (s : State) (z : Nat), Instr.releaseTimerExpiry z ∈ s.handed →
    let s0 := s.takeHanded (.releaseTimerExpiry z)
    (s.fireState z ≠ .releaseCountdown →
      exec (.releaseTimerExpiry z) s = .next (s0.setReleaseTimer z { s.releaseTimer z with pending := false }))
    ∧ (s.fireState z = .releaseCountdown →
        let s1 := s0.setReleaseTimer z
          { s.releaseTimer z with running := false, remaining := 0, pending := false, gated := false }
        let a := s1.setFire z { s.fire z with state := .released, silenced := false }
        let b := (a.queueUrgentAll (a.actuatorsOf z (fun f => f = .suppression)) 0x25 [byteOf z]
          ).queueUrgentAll (a.soundersOf z) 0x23 [3, 0]
        let c := ((b.offerNotice (b.fireNotice z .releaseCountdown)).lower .releaseCountdown z).raiseCondition .released z
        exec (.releaseTimerExpiry z) s = .next ((c.sweepZone z).hand (.zoneReport z (.fireChanged .released)))))

/-- ZONE SILENCE, ZONE RELEASE and ZONE FIRE RESET: the checks in their order, a refusal changing nothing, and what an
accepted request does. That ZONE SILENCE tests RANGE before NOT_ACTIVE is the model's reading (DEDUCED, log 33). That
the REPLY of ZONE RELEASE follows the ALERT notice of the entry is the model's choice (log 49). -/
def Obligations.FireRequests : Prop :=  ∀ (s : State) (tag : Byte) (z : Nat), s.ready →
    (let u := s.requested (.zoneSilence tag z)
     (15 < z → exec (.zoneSilence tag z) s = .next (u.reply 0x14 tag .range []))
     ∧ (z ≤ 15 → s.active = false → exec (.zoneSilence tag z) s = .next (u.replyRefused 0x14 tag .notActive []))
     ∧ (z ≤ 15 → s.active = true → s.fireState z ≠ .alarm → s.fireState z ≠ .released →
        exec (.zoneSilence tag z) s = .next (u.replyRefused 0x14 tag .notSilenceable []))
     ∧ (z ≤ 15 → s.active = true → s.fireState z = .alarm ∨ s.fireState z = .released →
        exec (.zoneSilence tag z) s
          = .next (((u.setFire z { s.fire z with silenced := true }).queueUrgentAll (u.soundersOf z) 0x23 [0, 0]).reply
              0x14 tag .done [byteOf (s.fireState z).code])))
    ∧ (let u := s.requested (.zoneRelease tag z)
       (15 < z → exec (.zoneRelease tag z) s = .next (u.reply 0x13 tag .range []))
       ∧ (z ≤ 15 → s.active = false → exec (.zoneRelease tag z) s = .next (u.replyRefused 0x13 tag .notActive []))
       ∧ (z ≤ 15 → s.active = true → (s.zone z).fitted = false →
          exec (.zoneRelease tag z) s = .next (u.replyRefused 0x13 tag .notFitted []))
       ∧ (z ≤ 15 → s.active = true → (s.zone z).fitted = true →
          (s.fireState z = .quiet ∨ s.fireState z = .preAlarm →
            exec (.zoneRelease tag z) s = .next (u.replyRefused 0x13 tag .notInAlarm []))
          ∧ (s.fireState z = .releaseCountdown ∨ s.fireState z = .released →
            exec (.zoneRelease tag z) s = .next (u.replyRefused 0x13 tag .alreadyReleasing []))
          ∧ (s.fireState z = .alarm →
            exec (.zoneRelease tag z) s = .next ((u.enterCountdown z).reply 0x13 tag .done [3]))))
    ∧ (let u := s.requested (.zoneFireReset tag z)
       (15 < z → exec (.zoneFireReset tag z) s = .next (u.reply 0x12 tag .range []))
       ∧ (z ≤ 15 → s.active = false → exec (.zoneFireReset tag z) s = .next (u.replyRefused 0x12 tag .notActive []))
       ∧ (z ≤ 15 → s.active = true → (s.fireState z).latched = false →
          exec (.zoneFireReset tag z) s = .next (u.replyRefused 0x12 tag .notLatched []))
       ∧ (z ≤ 15 → s.active = true → (s.fireState z).latched = true →
          (∀ front e back, s.inputsOf z (fun k => k = .smoke || k = .heat || k = .callPoint) = front ++ e :: back →
            (∀ i ∈ front, s.inputStage i.index = .clear) → s.inputStage e.index ≠ .clear →
            exec (.zoneFireReset tag z) s = .next (u.replyRefused 0x12 tag .detectorsActive [byteOf e.addr]))
          ∧ ((∀ i ∈ s.inputsOf z (fun k => k = .smoke || k = .heat || k = .callPoint), s.inputStage i.index = .clear) →
            let new : FireState := if (s.fire z).coupledSources = [] then .quiet else .preAlarm
            let a := if s.fireState z = .releaseCountdown then
                u.setReleaseTimer z { s.releaseTimer z with running := false, remaining := 0, pending := false, gated := false }
              else u
            let b := (a.setFire z { s.fire z with state := new, cause := none, silenced := false }).queueUrgentAll
              (a.soundersOf z) 0x23 [if new = .quiet then 0 else 1, 0]
            let c := b.offerNotice (b.fireNotice z (s.fireState z))
            let d := ((c.lower .fireAlarm z).lower .releaseCountdown z).lower .released z
            let e := (if new = .preAlarm then d.raiseCondition .firePreAlarm z else d).hand (.zoneReport z (.fireChanged new))
            let f := ((s.zone z).coupled.take (s.zone z).coupledCount).foldl (fun u t =>
              if z ∈ (u.fire t).coupledSources then
                (u.setFire t { u.fire t with coupledSources := eraseNat (u.fire t).coupledSources z }).hand
                  (.coupledZoneEvaluation t)
              else u) e
            exec (.zoneFireReset tag z) s
              = .next (f.reply 0x12 tag .done [byteOf (s.fireState z).code, byteOf new.code]))))

/-! ### Custody (R98 to R119) -/

/-- TAKE at a door reader: the checks in their order, each refusal reported with its outcome and changing nothing else; a TAKE
that passes them all checks the cartridge out, with a due minute exactly when the loan of its class is nonzero. -/
def Obligations.TakeIsCheckedInOrder : Prop :=  ∀ (s : State) (entry : Nat) (p : List Byte), s.serves entry → Tab.wf none s.csu.media = true →
    (s.station entry).kind = .reader → (s.station entry).role = .door →
    p.length = 9 → p.head? = some 0 → (field p 1 8).all identChar = true →
    let e := s.station entry
    let u := s.takeHanded (.takeScan entry p)
    (s.mga.partState = .autonomous → exec (.takeScan entry p) s = .next (u.scanReport e p .supervision none))
    ∧ (s.mga.partState ≠ .autonomous → s.mediaById (field p 1 8) = none →
        exec (.takeScan entry p) s = .next (u.scanReport e p .unknownMedia none))
    ∧ (∀ slot r, s.mga.partState ≠ .autonomous → s.mediaById (field p 1 8) = some (slot, r) →
        let held := r.manual = true ∨ r.agent = true
        let fire := s.fireState r.home ≠ .quiet ∨ (s.fire r.home).unmonitored = true
        let exposed := (s.climate r.home).exposed = true
        let damp := (s.climate r.home).state ∈ [ClimateState.noData, .critical]
          ∨ ((s.climate r.home).state = .excursion ∧ (s.zone r.home).takeLimit = .warning)
        let loan := (s.classEntry r.cls).loan
        let due := if loan = 0 then none else some (s.tmb.minuteClock + BitVec.ofNat 32 loan)
        let lent := Custody.checkedOut s.tmb.minuteClock due false
        (e.zone ≠ some r.home → exec (.takeScan entry p) s = .next (u.scanReport e p .wrongZone (some slot)))
        ∧ (e.zone = some r.home →
          (r.custody ≠ .shelved → exec (.takeScan entry p) s = .next (u.scanReport e p .state (some slot)))
          ∧ (r.custody = .shelved → held → exec (.takeScan entry p) s = .next (u.scanReport e p .hold (some slot)))
          ∧ (r.custody = .shelved → ¬ held → fire →
              exec (.takeScan entry p) s = .next (u.scanReport e p .fire (some slot)))
          ∧ (r.custody = .shelved → ¬ held → ¬ fire → exposed →
              exec (.takeScan entry p) s = .next (u.scanReport e p .exposed (some slot)))
          ∧ (r.custody = .shelved → ¬ held → ¬ fire → ¬ exposed → damp →
              exec (.takeScan entry p) s = .next (u.scanReport e p .climate (some slot)))
          ∧ (r.custody = .shelved → ¬ held → ¬ fire → ¬ exposed → ¬ damp →
              exec (.takeScan entry p) s
                = .next ((u.setMedia slot (some { r with custody := lent })).scanReport e p .granted (some slot)))))

/-- RETURN at a door reader: the checks in their order; a RETURN that passes them puts the cartridge on its shelf, or,
past its due minute, into ACCLIMATIZING for the base hold of its class. A scan of a station and intent that do not
belong together is answered WRONG_STATION, and a malformed scan, whatever its station, MALFORMED; neither looks a
record up. The report of every served scan is one ANSWER to its station, then one TRANSACTION notice of 36 bytes,
which holds the found record, the check-out and due minute of a granted TAKE and the release minute of a granted late
RETURN, the fields that are not present being zero. -/
def Obligations.ReturnsAndScanReports : Prop :=
  (∀ (s : State) (entry : Nat) (p : List Byte), s.serves entry → Tab.wf none s.csu.media = true →
    (s.station entry).kind = .reader → (s.station entry).role = .door →
    p.length = 9 → p.head? = some 1 → (field p 1 8).all identChar = true →
    let e := s.station entry
    let u := s.takeHanded (.returnScan entry p)
    (s.mediaById (field p 1 8) = none →
      exec (.returnScan entry p) s = .next (u.scanReport e p .unknownMedia none))
    ∧ (∀ slot r, s.mediaById (field p 1 8) = some (slot, r) →
        (e.zone ≠ some r.home → exec (.returnScan entry p) s = .next (u.scanReport e p .wrongZone (some slot)))
        ∧ (e.zone = some r.home →
          ((∀ since due reported, r.custody ≠ .checkedOut since due reported) →
            exec (.returnScan entry p) s = .next (u.scanReport e p .state (some slot)))
          ∧ (∀ since due reported, r.custody = .checkedOut since due reported →
            ((s.fireState r.home).latched = true →
              exec (.returnScan entry p) s = .next (u.scanReport e p .fire (some slot)))
            ∧ ((s.fireState r.home).latched = false → (∀ m, due = some m → s.tmb.minuteClock ≤ m) →
              exec (.returnScan entry p) s
                = .next ((u.setMedia slot (some { r with custody := .shelved })).scanReport e p .granted (some slot)))
            ∧ (∀ m, (s.fireState r.home).latched = false → due = some m → m < s.tmb.minuteClock →
              let release := s.tmb.minuteClock + BitVec.ofNat 32 (s.classEntry r.cls).baseHold
              exec (.returnScan entry p) s
                = .next ((u.setMedia slot (some { r with custody := .acclimatizing release })).scanReport
                    e p .granted (some slot)))))))
  ∧ (∀ (s : State) (entry : Nat) (p : List Byte), s.serves entry →
    let e := s.station entry
    let formed := p.length = 9 ∧ (∃ b, p.head? = some b ∧ b.toNat ≤ 3) ∧ (field p 1 8).all identChar = true
    (e.kind = .reader → e.role = .door → p.head? ∉ [some 1, some 2, some 3] → ¬ formed →
      exec (.takeScan entry p) s = .next ((s.takeHanded (.takeScan entry p)).scanReport e p .malformed none))
    ∧ (e.kind = .reader → e.role = .door → p.head? = some 1 → ¬ formed →
      exec (.returnScan entry p) s = .next ((s.takeHanded (.returnScan entry p)).scanReport e p .malformed none))
    ∧ ((e.kind = .reader ∧ e.role = .door ∧ p.head? ∈ [some 2, some 3]) ∨ (e.kind = .reader ∧ e.role = .witness ∧ p.head? ≠ some 3)
        ∨ (e.kind = .courierTerminal ∧ p.head? ≠ some 2) ∨ (e.kind = .reader ∧ e.role = .none) →
      (formed →
        exec (.wrongStationScan entry p) s
          = .next ((s.takeHanded (.wrongStationScan entry p)).scanReport e p .wrongStation none))
      ∧ (¬ formed →
        exec (.wrongStationScan entry p) s
          = .next ((s.takeHanded (.wrongStationScan entry p)).scanReport e p .malformed none)))
    ∧ (∀ (u : State) (out : Outcome) (found : Option Nat),
        u.scanReport e p out found
          = (u.originate .csu e.addr 0x20 ([byteAt p 0] ++ field p 1 8 ++ [byteOf out.code])).offerNotice
              (u.transactionNotice e p out found)
        ∧ (u.transactionNotice e p out found).length = 36
        ∧ (let head := [2, byteOf e.addr, (match e.zone with | some z => byteOf z | none => 0xFF), byteAt p 0]
             ++ field p 1 8 ++ [byteOf out.code]
           let now := enc4 u.tmb.minuteClock
           (∀ slot, found = none ∨ (found = some slot ∧ u.mediaAt slot = none) →
              u.transactionNotice e p out found = head ++ [0, 0, 0, 0] ++ now ++ List.replicate 15 0)
           ∧ (∀ slot r, found = some slot → u.mediaAt slot = some r →
              let known := head ++ [1, byteOf (slot / 256), byteOf slot, byteOf r.custody.code] ++ now
              (∀ since due reported, out = .granted → r.custody = .checkedOut since (some due) reported →
                u.transactionNotice e p out found = known ++ enc4 since ++ [1] ++ enc4 due ++ List.replicate 6 0)
              ∧ (∀ since reported, out = .granted → r.custody = .checkedOut since none reported →
                u.transactionNotice e p out found = known ++ enc4 since ++ List.replicate 11 0)
              ∧ (∀ release, out = .granted → r.custody = .acclimatizing release →
                u.transactionNotice e p out found = known ++ List.replicate 9 0 ++ [1] ++ enc4 release ++ [0])
              ∧ (out ≠ .granted ∨ ((∀ since due reported, r.custody ≠ .checkedOut since due reported)
                    ∧ ∀ release, r.custody ≠ .acclimatizing release) →
                u.transactionNotice e p out found = known ++ List.replicate 15 0)))))
  ∧ [Outcome.granted, .passed, .recorded, .supervision, .unknownMedia, .wrongZone, .state, .hold, .fire, .exposed, .climate,
      .wrongStation, .malformed, .notAtHatch, .busy, .noConsignment, .hatch, .notExpected, .notInConsignment,
      .duplicate].map Outcome.code = List.range 20

/-- MINUTE_SCAN_VISIT: one slot is visited and the position moves on, past slot 4095 to the end of the pass. An ACCLIMATIZING
record whose release minute has come is SHELVED in a zone in NORMAL or WARNING and otherwise left; a loan past its due minute
is reported once; other records and free slots are left. Sixteen gathered releases are offered in a notice; the end of the
pass offers the rest with the final mark, if the pass released anything, and begins a further pass where one is due.
AGENT_SWEEP_VISIT: one slot is visited; a record at home in the swept zone and in the room (SHELVED, ACCLIMATIZING or
CONSIGNED) that does not hold AGENT gains it and is entered; the end of the sweep offers the final notice, empty or not, and
begins the sweep of the zone at the head of the queue. A zone that enters RELEASED is swept at once when no sweep runs, and
otherwise joins the queue unless it waits there already. A MEDIA notice holds its cause, the starting minute or the zone, the
part number, the final mark and the entries, each a slot and a media ID. Where the gathered entries and the part number stand
(log 23) and that the position between visits is the slot visited next (log 42) are the model's choices, and a part number
above 255 is a free value (log 12). -/
def Obligations.MinuteScanAndAgentSweep : Prop :=
  (∀ s : State,
    (s.csu.scan.position = none → exec .minuteScanVisit s = .next s)
    ∧ (∀ slot, s.csu.scan.position = some slot →
        let visited := (s.mediaAt slot).elim s (fun r => s.scanRecordVisit slot r)
        (slot < 4095 → exec .minuteScanVisit s
            = .next (visited.setScan { visited.csu.scan with position := some (slot + 1) }))
        ∧ (4095 ≤ slot → exec .minuteScanVisit s = .next visited.endPass))
    ∧ (∀ slot r,
        (∀ m, r.custody = .acclimatizing m →
          (m ≤ s.tmb.minuteClock → (s.climate r.home).state ∈ [ClimateState.normal, .warning] →
            s.scanRecordVisit slot r = (s.setMedia slot (some { r with custody := .shelved })).gatherRelease slot r.id)
          ∧ (s.tmb.minuteClock < m ∨ (s.climate r.home).state ∉ [ClimateState.normal, .warning] →
            s.scanRecordVisit slot r = s))
        ∧ (∀ since due, r.custody = .checkedOut since (some due) false →
          (due < s.tmb.minuteClock →
            s.scanRecordVisit slot r
              = (s.setMedia slot (some { r with custody := .checkedOut since (some due) true })).raiseEvent .mediaOverdue slot)
          ∧ (s.tmb.minuteClock ≤ due → s.scanRecordVisit slot r = s))
        ∧ ((∀ m, r.custody ≠ .acclimatizing m) → (∀ since due, r.custody ≠ .checkedOut since (some due) false) →
            s.scanRecordVisit slot r = s))
    ∧ (∀ slot id,
        let r := s.csu.scan
        (r.entries.length < 15 →
          s.gatherRelease slot id = s.setScan { r with entries := r.entries ++ [(slot, id)] })
        ∧ (15 ≤ r.entries.length →
          s.gatherRelease slot id = (s.setScan { r with entries := [], offered := r.offered + 1 }).offerNotice
            (mediaNotice 0 (enc4 r.began) (r.offered + 1) false (r.entries ++ [(slot, id)]))))
    ∧ (let r := s.csu.scan
       let told := if r.entries = [] ∧ r.offered = 0 then s
         else s.offerNotice (mediaNotice 0 (enc4 r.began) (r.offered + 1) true r.entries)
       (r.further = true → s.endPass = told.setScan ⟨some 0, false, s.tmb.minuteClock, [], 0⟩)
       ∧ (r.further = false → s.endPass = told.setScan ⟨none, false, 0, [], 0⟩))
    ∧ (s.active = true →
        (s.csu.scan.position = none → s.custodyMinute = s.setScan ⟨some 0, false, s.tmb.minuteClock, [], 0⟩)
        ∧ (∀ slot, s.csu.scan.position = some slot → s.custodyMinute = s.setScan { s.csu.scan with further := true }))
    ∧ (s.active = false → s.custodyMinute = s))
  ∧ (∀ s : State,
    (s.csu.sweep.running = none → exec .agentSweepVisit s = .next s)
    ∧ (∀ z slot, s.csu.sweep.running = some (z, slot) →
        let visited := (s.mediaAt slot).elim s (fun r => s.sweepRecordVisit z slot r)
        (slot < 4095 → exec .agentSweepVisit s
            = .next (visited.setSweep { visited.csu.sweep with running := some (z, slot + 1) }))
        ∧ (4095 ≤ slot → exec .agentSweepVisit s = .next (visited.endSweep z)))
    ∧ (∀ z slot r,
        let inRoom := r.custody = .shelved ∨ (∃ m, r.custody = .acclimatizing m) ∨ (∃ n, r.custody = .consigned n)
        (r.home = z → inRoom → r.agent = false →
          s.sweepRecordVisit z slot r = (s.setMedia slot (some { r with agent := true })).gatherMark z slot r.id)
        ∧ (r.home ≠ z ∨ ¬ inRoom ∨ r.agent = true → s.sweepRecordVisit z slot r = s))
    ∧ (∀ z slot id,
        let r := s.csu.sweep
        (r.entries.length < 15 → s.gatherMark z slot id = s.setSweep { r with entries := r.entries ++ [(slot, id)] })
        ∧ (15 ≤ r.entries.length →
          s.gatherMark z slot id = (s.setSweep { r with entries := [], offered := r.offered + 1 }).offerNotice
            (mediaNotice 1 [0, 0, 0, byteOf z] (r.offered + 1) false (r.entries ++ [(slot, id)]))))
    ∧ (∀ z,
        let r := s.csu.sweep
        let told := s.offerNotice (mediaNotice 1 [0, 0, 0, byteOf z] (r.offered + 1) true r.entries)
        (r.queue = [] → s.endSweep z = told.setSweep ⟨none, [], [], 0⟩)
        ∧ (∀ next rest, r.queue = next :: rest → s.endSweep z = told.setSweep ⟨some (next, 0), rest, [], 0⟩))
    ∧ (∀ z,
        let r := s.csu.sweep
        (r.running = none → s.sweepZone z = s.setSweep ⟨some (z, 0), r.queue, [], 0⟩)
        ∧ (r.running ≠ none → z ∉ r.queue → s.sweepZone z = s.setSweep { r with queue := r.queue ++ [z] })
        ∧ (r.running ≠ none → z ∈ r.queue → s.sweepZone z = s)))
  ∧ (∀ (cause part : Nat) (about : List Byte) (final : Bool) (entries : List (Nat × Ident)), part ≤ 255 →
      mediaNotice cause about part final entries
        = [4, byteOf cause] ++ about ++ [byteOf part, if final then 1 else 0, byteOf entries.length]
          ++ entries.flatMap (fun p => [byteOf (p.1 / 256), byteOf p.1] ++ field p.2 0 8)
      ∧ (about.length = 4 → (mediaNotice cause about part final entries).length = 9 + 10 * entries.length))

/-- The item operations on a media record: each from its own state alone; from any other state the record is unchanged, and on
a free slot nothing changes. -/
def Obligations.ItemOperations : Prop :=  (∀ (s : State) slot op, (s.mediaAt slot = none → s.itemOp slot op = s)
      ∧ (∀ r, s.mediaAt slot = some r → s.itemOp slot op = s.setMedia slot (some (op.apply r))))
  ∧ (∀ (r : MediaRec) (n : Nat) (m : Minute),
    (r.custody = .shelved → (ItemOp.outboundConsign n).apply r = { r with custody := .consigned n })
    ∧ (r.custody ≠ .shelved → (ItemOp.outboundConsign n).apply r = r)
    ∧ (r.custody = .out → (ItemOp.inboundConsign n).apply r = { r with custody := .arriving n })
    ∧ (r.custody ≠ .out → (ItemOp.inboundConsign n).apply r = r)
    ∧ (∀ k, r.custody = .consigned k → ItemOp.outboundPass.apply r = { r with custody := .out }
        ∧ ItemOp.outboundMissing.apply r = { r with custody := .shelved, manual := true }
        ∧ ItemOp.outboundRevert.apply r = { r with custody := .shelved })
    ∧ ((∀ k, r.custody ≠ .consigned k) →
        ItemOp.outboundPass.apply r = r ∧ ItemOp.outboundMissing.apply r = r ∧ ItemOp.outboundRevert.apply r = r)
    ∧ (∀ k, r.custody = .arriving k →
        (ItemOp.inboundPass n m).apply r = { r with custody := .acclimatizing m, home := n }
        ∧ ItemOp.inboundMissing.apply r = { r with custody := .out }
        ∧ ItemOp.inboundRevert.apply r = { r with custody := .out })
    ∧ ((∀ k, r.custody ≠ .arriving k) →
        (ItemOp.inboundPass n m).apply r = r ∧ ItemOp.inboundMissing.apply r = r ∧ ItemOp.inboundRevert.apply r = r))

/-- The MEDIA requests: ENTER places a new record, with no holds, in the lowest free slot; DELETE frees the slot of a
SHELVED or OUT record; MOVE changes the home zone of a SHELVED one; HOLD SET and HOLD CLEAR change one hold, a clear
of AGENT only in a QUIET zone; QUERY changes nothing. A malformed identifier or hold code is MALFORMED. Each refusal
has its status and reason and changes nothing. That MOVE tests RANGE first (log 33) and that a clear of AGENT outside
QUIET is refused whether or not the hold is set (log 41) are the model's choices. -/
def Obligations.MediaRequests : Prop :=  (∀ (s : State) (tag : Byte) (id : Ident), s.ready →
    let malformed (c : Instr) (kind : Nat) : Prop := exec c s = .next ((s.requested c).reply kind tag .malformed [])
    (id.length ≠ 8 ∨ id.all identChar = false →
      (∀ cls home initial, malformed (.mediaEnter tag id cls home initial) 0x20)
      ∧ malformed (.mediaDelete tag id) 0x21 ∧ (∀ home, malformed (.mediaMove tag id home) 0x22)
      ∧ (∀ hold, malformed (.mediaHoldSet tag id hold) 0x23 ∧ malformed (.mediaHoldClear tag id hold) 0x24)
      ∧ malformed (.mediaQuery tag id) 0x25)
    ∧ (∀ hold, 1 < hold → malformed (.mediaHoldSet tag id hold) 0x23 ∧ malformed (.mediaHoldClear tag id hold) 0x24))
  ∧ (∀ (s : State) (tag : Byte) (id : Ident), s.ready → id.length = 8 → id.all identChar = true →
    (∀ cls home initial,
      let c := Instr.mediaEnter tag id cls home initial
      let u := s.requested c
      (initial ≠ 0 → initial ≠ 3 → exec c s = .next (u.reply 0x20 tag .malformed []))
      ∧ (initial = 0 ∨ initial = 3 →
        (7 < cls ∨ 15 < home → exec c s = .next (u.reply 0x20 tag .range []))
        ∧ (cls ≤ 7 → home ≤ 15 →
          (∀ slot r, s.mediaById id = some (slot, r) →
            exec c s = .next (u.replyRefused 0x20 tag .duplicate [byteOf (slot / 256), byteOf slot]))
          ∧ (s.mediaById id = none → (∀ k, k < 4096 → s.mediaAt k ≠ none) → Tab.wf none s.csu.media = true →
            exec c s = .next (u.reply 0x20 tag .full []))
          ∧ (∀ slot, s.mediaById id = none → Tab.wf none s.csu.media = true → slot < 4096 → s.mediaAt slot = none →
              (∀ k, k < slot → s.mediaAt k ≠ none) →
            exec c s = .next ((u.setMedia slot (some ⟨id, cls, home, if initial = 0 then .shelved else .out, false, false⟩)
              ).reply 0x20 tag .done [byteOf (slot / 256), byteOf slot])))))
    ∧ (s.mediaById id = none →
        exec (.mediaDelete tag id) s = .next ((s.requested (.mediaDelete tag id)).reply 0x21 tag .notFound [])
        ∧ (∀ home, home ≤ 15 →
            exec (.mediaMove tag id home) s = .next ((s.requested (.mediaMove tag id home)).reply 0x22 tag .notFound []))
        ∧ (∀ hold, hold ≤ 1 →
            exec (.mediaHoldSet tag id hold) s = .next ((s.requested (.mediaHoldSet tag id hold)).reply 0x23 tag .notFound [])
            ∧ exec (.mediaHoldClear tag id hold) s
                = .next ((s.requested (.mediaHoldClear tag id hold)).reply 0x24 tag .notFound []))
        ∧ exec (.mediaQuery tag id) s = .next ((s.requested (.mediaQuery tag id)).reply 0x25 tag .notFound []))
    ∧ (∀ home, 15 < home →
        exec (.mediaMove tag id home) s = .next ((s.requested (.mediaMove tag id home)).reply 0x22 tag .range []))
    ∧ (∀ slot r, s.mediaById id = some (slot, r) →
        (let u := s.requested (.mediaDelete tag id)
         (r.custody = .shelved ∨ r.custody = .out →
            exec (.mediaDelete tag id) s
              = .next ((u.setMedia slot none).reply 0x21 tag .done [byteOf (slot / 256), byteOf slot]))
         ∧ (r.custody ≠ .shelved → r.custody ≠ .out →
            exec (.mediaDelete tag id) s = .next (u.replyRefused 0x21 tag .state [byteOf r.custody.code])))
        ∧ (∀ home, home ≤ 15 →
            let u := s.requested (.mediaMove tag id home)
            (r.custody = .shelved → exec (.mediaMove tag id home) s
              = .next ((u.setMedia slot (some { r with home := home })).reply 0x22 tag .done [byteOf r.home, byteOf home]))
            ∧ (r.custody ≠ .shelved → exec (.mediaMove tag id home) s = .next (u.replyRefused 0x22 tag .state [])))
        ∧ exec (.mediaHoldSet tag id 0) s
            = .next (((s.requested (.mediaHoldSet tag id 0)).setMedia slot (some { r with manual := true })).reply 0x23 tag
                .done [if r.agent then 3 else 1])
        ∧ exec (.mediaHoldSet tag id 1) s
            = .next (((s.requested (.mediaHoldSet tag id 1)).setMedia slot (some { r with agent := true })).reply 0x23 tag
                .done [if r.manual then 3 else 2])
        ∧ exec (.mediaHoldClear tag id 0) s
            = .next (((s.requested (.mediaHoldClear tag id 0)).setMedia slot (some { r with manual := false })).reply 0x24 tag
                .done [if r.agent then 2 else 0])
        ∧ (s.fireState r.home ≠ .quiet → exec (.mediaHoldClear tag id 1) s
            = .next ((s.requested (.mediaHoldClear tag id 1)).replyRefused 0x24 tag .fire []))
        ∧ (s.fireState r.home = .quiet → exec (.mediaHoldClear tag id 1) s
            = .next (((s.requested (.mediaHoldClear tag id 1)).setMedia slot (some { r with agent := false })).reply 0x24 tag
                .done [if r.manual then 1 else 0]))
        ∧ exec (.mediaQuery tag id) s
            = .next ((s.requested (.mediaQuery tag id)).reply 0x25 tag .done
                ([byteOf (slot / 256), byteOf slot] ++ r.image ++ enc4 s.tmb.minuteClock))))

/-! ### Handovers (R120 to R146) -/

/-- The frames of the hatch stations are answered in the order of R128: a station of no hatch NOT_AT_HATCH, a payload not of
its layout MALFORMED, a station that does not send this frame at its hatch WRONG_STATION; none of them changes a consignment.
An ANSWER to a step names the step, the consignment or 0, and the outcome, one to an item scan the intent and media ID as
received. The frames, notices, alerts and chimes of one event of the Handover Controller are given in that order. The order of
the frames of one event, and the reference 0 of a WRONG_STATION to a DONE, are the model's choices (log 17). A change of state
stores the record and gives a STATE notice. A HANDOVER notice about a consignment is one frame, or for more than 12 items two
with the same head; each item carries its media ID, slot, status and, where an inbound item has PASSED and its record is still
ACCLIMATIZING, the record's release minute (DEDUCED, log 20); item indices count from 1 (log 15). -/
def Obligations.HatchFramesAreAnsweredInOrder : Prop :=  (∀ w : Work, w.finish = w.chimes.foldl State.chime (w.alerts.foldl (fun u a => u.raiseEvent a.1 a.2)
      (w.notices.foldl State.offerNotice (w.frames.foldl State.queueHoc w.s))))
  ∧ (∀ (s : State) dst kind payload unit, s.queueHoc (.ordinary dst kind payload) = s.originate .hoc dst kind payload
      ∧ s.queueHoc (.urgentLock unit) = s.queueUrgent unit 0x24 [0])
  ∧ (∀ (w : Work) (c : Consignment) (before : ConsignState),
      w.enter c before = { w with
        s := w.s.setConsignment c
        notices := w.notices ++ (w.s.setConsignment c).handoverNotice c 0 before.code c.state.code })
  ∧ (∀ (s : State) (c : Consignment) (event before after : Nat),
      let items := c.items.map (fun i => field i.id 0 8 ++ [byteOf (i.slot / 256), byteOf i.slot, byteOf i.status.code]
        ++ s.itemRelease c.direction i)
      let frame (part final first : Nat) (of : List (List Byte)) : List Byte :=
        [3, byteOf c.hatch] ++ enc4 s.tmb.minuteClock ++ [byteOf event, byteOf (c.number / 256), byteOf c.number,
          byteOf c.direction.code] ++ field c.courier 0 8 ++ [byteOf before, byteOf after]
          ++ (match c.abort with
              | some (why, from_) => [byteOf why.code, byteOf from_.code]
              | none => [0, 0])
          ++ [match c.endCause with
              | some cause => byteOf cause.code
              | none => 0]
          ++ [byteOf c.items.length, byteOf part, byteOf final, byteOf first, byteOf of.length, 0] ++ of.flatten
      (c.items.length ≤ 12 → s.handoverNotice c event before after = [frame 1 1 1 items])
      ∧ (12 < c.items.length →
          s.handoverNotice c event before after = [frame 1 0 1 (items.take 12), frame 2 1 13 (items.drop 12)]))
  ∧ (∀ (s : State) (d : Direction) (i : Item),
      (∀ r m, d = .inbound → i.status = .passed → s.mediaAt i.slot = some r → r.id = i.id → r.custody = .acclimatizing m →
        s.itemRelease d i = enc4 m)
      ∧ (d = .outbound ∨ i.status ≠ .passed
          ∨ (∀ r m, s.mediaAt i.slot = some r → r.id = i.id → r.custody ≠ .acclimatizing m) →
        s.itemRelease d i = [0, 0, 0, 0]))
  ∧ (∀ (w : Work) dst k n out p,
      w.answerStep dst k n out = { w with frames := w.frames ++ [.ordinary dst 0x20
        [byteOf k.code, byteOf (n / 256), byteOf n, 0, 0, 0, 0, 0, 0, byteOf out.code]] }
      ∧ w.answerScan dst p out = { w with frames := w.frames ++ [.ordinary dst 0x20
        ([byteAt p 0] ++ field p 1 8 ++ [byteOf out.code])] })
  ∧ (∀ (s : State) (entry : Nat) (p : List Byte), s.serves entry →
      let e := s.station entry
      let step (c : Instr) (k : StepKind) (out : Outcome) : Prop :=
        exec c s = .next (((s.takeHanded c).begin.answerStep e.addr k 0 out).finish)
      let scan (c : Instr) (out : Outcome) : Prop :=
        exec c s = .next (((s.takeHanded c).begin.answerScan e.addr p out).finish)
      (e.kind = .courierTerminal ∨ (e.kind = .reader ∧ e.role = .witness) →
        (s.hatchByStation e.addr = none →
          step (.arrive entry p) .arrive .notAtHatch ∧ step (.caseReport entry p) .caseFigures .notAtHatch
          ∧ step (.accept entry p) .accept .notAtHatch ∧ step (.confirm entry p) .confirm .notAtHatch
          ∧ step (.doneStep entry p) .done .notAtHatch)
        ∧ (∀ h he, s.hatchByStation e.addr = some (h, he) →
          (p.length ≠ 8 ∨ (field p 0 8).all identChar = false → step (.arrive entry p) .arrive .malformed)
          ∧ (p.length ≠ 8 → step (.caseReport entry p) .caseFigures .malformed)
          ∧ (p.length ≠ 2 → step (.accept entry p) .accept .malformed ∧ step (.confirm entry p) .confirm .malformed
              ∧ step (.doneStep entry p) .done .malformed)
          ∧ (p.length = 8 → he.terminal ≠ e.addr →
              ((field p 0 8).all identChar = true → step (.arrive entry p) .arrive .wrongStation)
              ∧ step (.caseReport entry p) .caseFigures .wrongStation)
          ∧ (p.length = 2 → he.terminal ≠ e.addr → step (.accept entry p) .accept .wrongStation)
          ∧ (p.length = 2 → he.witness ≠ e.addr → step (.confirm entry p) .confirm .wrongStation)
          ∧ (∀ c, p.length = 2 → s.activeOn h = some c →
              (c.direction = .outbound ∧ he.terminal ≠ e.addr) ∨ (c.direction = .inbound ∧ he.witness ≠ e.addr) →
              step (.doneStep entry p) .done .wrongStation)))
      ∧ (e.kind = .courierTerminal → p.head? = some 2 →
        (s.hatchByStation e.addr = none → scan (.scanHandover entry p) .notAtHatch)
        ∧ (∀ h he, s.hatchByStation e.addr = some (h, he) →
          (p.length ≠ 9 ∨ (field p 1 8).all identChar = false → scan (.scanHandover entry p) .malformed)
          ∧ (p.length = 9 → (field p 1 8).all identChar = true → he.terminal ≠ e.addr →
              scan (.scanHandover entry p) .wrongStation)))
      ∧ (e.kind = .reader → e.role = .witness → p.head? = some 3 →
        (s.hatchByStation e.addr = none → scan (.scanReceive entry p) .notAtHatch)
        ∧ (∀ h he, s.hatchByStation e.addr = some (h, he) →
          (p.length ≠ 9 ∨ (field p 1 8).all identChar = false → scan (.scanReceive entry p) .malformed)
          ∧ (p.length = 9 → (field p 1 8).all identChar = true → he.witness ≠ e.addr →
              scan (.scanReceive entry p) .wrongStation))))

/-- ARRIVE at the courier terminal of a hatch: the checks in their order, each refusal answered and reported in an
ARRIVE_REFUSED notice with the matched consignment's number or 0, the consignment staying WAITING; a granted ARRIVE is
answered GRANTED, an INBOUND consignment enters AWAIT_CASE under the accept timeout, an OUTBOUND one goes to the condensation
gate. The first item index 1 of a notice without items (log 15) and the reference 0 of an ANSWER (log 17) are the model's
choices. -/
def Obligations.ArriveIsCheckedInOrder : Prop :=  ∀ (s : State) (entry : Nat) (p : List Byte) (h : Nat) (he : HatchEntry), s.serves entry →
    (s.station entry).kind = .courierTerminal → s.hatchByStation (s.station entry).addr = some (h, he) →
    he.terminal = (s.station entry).addr → s.hatch h = he → p.length = 8 → (field p 0 8).all identChar = true →
    let dst := (s.station entry).addr
    let w := (s.takeHanded (.arrive entry p)).begin
    let refused (n : Nat) (out : Outcome) : Prop :=
      exec (.arrive entry p) s = .next (((w.answerStep dst .arrive n out).notice
        [[3, byteOf h] ++ enc4 s.tmb.minuteClock ++ [3, byteOf (n / 256), byteOf n, 0] ++ field p 0 8
          ++ [0, 0, 0, 0, 0, 0, 1, 1, 1, 0, byteOf out.code]]).finish)
    (s.mga.partState = .autonomous → refused 0 .supervision)
    ∧ (s.mga.partState ≠ .autonomous → s.activeOn h ≠ none → refused 0 .busy)
    ∧ (s.mga.partState ≠ .autonomous → s.activeOn h = none →
        ((∀ c ∈ s.hoc.consignments, c.hatch = h → c.state = .waiting → c.courier ≠ field p 0 8) →
          refused 0 .noConsignment)
        ∧ (∀ c front back, s.hoc.consignments = front ++ c :: back →
            (∀ x ∈ front, x.hatch = h → x.state = .waiting → x.courier ≠ field p 0 8) →
            c.hatch = h → c.state = .waiting → c.courier = field p 0 8 →
            let held := ∃ i ∈ c.items, ∃ r, s.mediaAt i.slot = some r ∧ (r.manual = true ∨ r.agent = true)
            let fire := s.fireState he.inner ≠ .quiet ∨ (∃ z, he.outer = some z ∧ s.fireState z ≠ .quiet)
              ∨ (s.fire he.inner).unmonitored = true
            let damp := (s.climate he.inner).state ∈ [ClimateState.noData, .critical]
              ∨ ((s.climate he.inner).state = .excursion ∧ (s.zone he.inner).takeLimit = .warning)
            let ajar := (s.hatchRuntime h).position ≠ .closedLocked ∨ (s.hatchRuntime h).manual = true
            let w1 := w.answerStep dst .arrive c.number .granted
            (held → refused c.number .hold)
            ∧ (¬ held → fire → refused c.number .fire)
            ∧ (¬ held → ¬ fire → damp → refused c.number .climate)
            ∧ (¬ held → ¬ fire → ¬ damp → ajar → refused c.number .hatch)
            ∧ (¬ held → ¬ fire → ¬ damp → ¬ ajar →
                (c.direction = .inbound → exec (.arrive entry p) s
                  = .next (((w1.startStep h he.acceptTimeout false false).enter { c with state := .awaitCase } .waiting).finish))
                ∧ (c.direction = .outbound → exec (.arrive entry p) s = .next ((w1.runGate c).finish)))))

/-- CASE from the courier terminal: by the state of the consignment beyond WAITING. In AWAIT_CASE the figures are stored, each
clamped, and the gate is run; later the case temperature alone is set, and a consignment in EQUALIZING is gated again. The
condensation gate: an INBOUND consignment passes when its latest case temperature is at least the inner zone's dew point plus
the margin, an OUTBOUND one when its hatch has no outer zone or the inner zone T is at least the outer zone's dew point plus
the margin; a zone without data fails it. A gate that fails at ARRIVE or the first CASE gives EQUALIZING under the equalize
timeout; one that passes gives OFFERED: the frozen figures, the two OFFERs, the accept timeout, the dwell, the STATE notice
and the test of the unlock. The number in a NOT_EXPECTED answer, and that the OFFER to the courier terminal stands before that
to the witness reader and both after the ANSWER, are the model's choices (log 17). -/
def Obligations.CaseGateAndOffer : Prop :=
  (∀ (s : State) (entry : Nat) (p : List Byte) (h : Nat) (he : HatchEntry), s.serves entry →
    (s.station entry).kind = .courierTerminal → s.hatchByStation (s.station entry).addr = some (h, he) →
    he.terminal = (s.station entry).addr → p.length = 8 →
    let dst := (s.station entry).addr
    let w := (s.takeHanded (.caseReport entry p)).begin
    let temp (i : Int) : Int := min 850 (max (-400) i)
    let ends (v : Work) : Prop := exec (.caseReport entry p) s = .next v.finish
    (s.activeOn h = none → ends (w.answerStep dst .caseFigures 0 .noConsignment))
    ∧ (∀ c, s.activeOn h = some c →
        (c.direction = .outbound → ends (w.answerStep dst .caseFigures c.number .notExpected))
        ∧ (c.direction = .inbound →
          let w1 := w.answerStep dst .caseFigures c.number .recorded
          let c1 := { c with caseTemp := some (temp (signed2 p 0)) }
          (c.state = .awaitCase →
            ends (w1.runGate { c1 with
              caseFigures := some ⟨temp (signed2 p 2), min 1000 (nat2 p 4), nat2 p 6⟩ }))
          ∧ (c.state = .equalizing → s.gatePasses c1 = true → ends (w1.enterOffered c1))
          ∧ (c.state ≠ .awaitCase → c.state ≠ .equalizing ∨ s.gatePasses c1 = false →
            ends (w1.mapState (fun u => u.setConsignment c1))))))
  ∧ ((∀ (s : State) (c : Consignment),
    let he := s.hatch c.hatch
    (c.direction = .inbound → (s.gatePasses c = true ↔ ∃ t r, c.caseTemp = some t ∧ (s.climate he.inner).reading = some r
      ∧ r.td + he.margin ≤ t))
    ∧ (c.direction = .outbound → (s.gatePasses c = true ↔ he.outer = none ∨ ∃ z i o, he.outer = some z
      ∧ (s.climate he.inner).reading = some i ∧ (s.climate z).reading = some o ∧ o.td + he.margin ≤ i.t)))
  ∧ (∀ (w : Work) (c : Consignment),
    let he := w.s.hatch c.hatch
    (w.s.gatePasses c = true → w.runGate c = w.enterOffered c)
    ∧ (w.s.gatePasses c = false →
        w.runGate c = (w.startStep c.hatch he.equalizeTimeout false false).enter { c with state := .equalizing } c.state)
    ∧ (∀ frozen, w.frozenFigures c = frozen →
        let offer := [byteOf (c.number / 256), byteOf c.number, byteOf c.direction.code, byteOf c.items.length]
          ++ c.items.flatMap (fun i => field i.id 0 8)
        let c1 := { c with state := .offered, frozen := frozen }
        let w1 := ((w.frame he.terminal 0x21 offer).frame he.witness 0x21 offer).startStep c.hatch he.acceptTimeout false false
        (he.mode = .paced →
          w.enterOffered c = (((w1.setRuntime c.hatch (fun r => { r with dwellDone := false })).mapState
            (fun u => u.setDwellTimer c.hatch ((u.dwellTimer c.hatch).start he.dwell false false))).enter c1 c.state
            ).testUnlock c1)
        ∧ (he.mode ≠ .paced →
          w.enterOffered c = ((w1.setRuntime c.hatch (fun r => { r with dwellDone := true })).enter c1 c.state).testUnlock c1))
    ∧ (∀ f r, c.direction = .inbound → c.caseFigures = some f → (w.s.climate he.inner).reading = some r →
        w.frozenFigures c = some ⟨f.meanT, f.meanRh, f.minutes, r.t, r.rh⟩)
    ∧ (c.direction = .outbound → w.frozenFigures c = none)))

/-- ACCEPT from the courier terminal and CONFIRM from the witness reader: recorded in OFFERED, with the unlock tested;
otherwise NO_CONSIGNMENT or NOT_EXPECTED. A consignment in OFFERED is ready when it has been accepted, and confirmed in
WITNESSED mode, the dwell is done and both zones are QUIET; it then has a HATCH UNLOCK queued, the unlock reference set, the
open timeout started and enters UNLOCKING; the test of one that is not ready changes nothing. That the ANSWER stands before the
HATCH UNLOCK of its event (log 17), and that a repeated ACCEPT or CONFIRM tests the unlock again (log 43), are the model's
choices. -/
def Obligations.AcceptConfirmAndUnlock : Prop :=  (∀ (s : State) (entry : Nat) (p : List Byte) (h : Nat) (he : HatchEntry), s.serves entry →
    s.hatchByStation (s.station entry).addr = some (h, he) → p.length = 2 →
    let dst := (s.station entry).addr
    let served (c : Instr) (k : StepKind) (mark : Consignment → Consignment) : Prop :=
      let w := (s.takeHanded c).begin
      (s.activeOn h = none → exec c s = .next ((w.answerStep dst k 0 .noConsignment).finish))
      ∧ (∀ x, s.activeOn h = some x →
          (x.number ≠ nat2 p 0 → exec c s = .next ((w.answerStep dst k 0 .noConsignment).finish))
          ∧ (x.number = nat2 p 0 → x.state ≠ .offered →
            exec c s = .next ((w.answerStep dst k x.number .notExpected).finish))
          ∧ (x.number = nat2 p 0 → x.state = .offered →
            exec c s = .next ((((w.answerStep dst k x.number .recorded).mapState
              (fun u => u.setConsignment (mark x))).testUnlock (mark x)).finish)))
    ((s.station entry).kind = .courierTerminal → he.terminal = dst →
      served (.accept entry p) .accept (fun x => { x with acceptReceived := true }))
    ∧ ((s.station entry).kind = .reader → (s.station entry).role = .witness → he.witness = dst →
      served (.confirm entry p) .confirm (fun x => { x with confirmReceived := true })))
  ∧ (∀ (w : Work) (c : Consignment),
    let he := w.s.hatch c.hatch
    let ready := c.acceptReceived = true ∧ (he.mode = .witnessed → c.confirmReceived = true)
      ∧ (w.s.hatchRuntime c.hatch).dwellDone = true ∧ w.s.fireState he.inner = .quiet
      ∧ (∀ z, he.outer = some z → w.s.fireState z = .quiet)
    (c.state = .offered → ready →
      w.testUnlock c = (((w.frame he.unit 0x24 [1]).setRuntime c.hatch (fun r => { r with unlockRef := some c.number })
        ).startStep c.hatch he.openTimeout false false).enter { c with state := .unlocking } .offered)
    ∧ (c.state ≠ .offered ∨ ¬ ready → w.testUnlock c = w))

/-- Item scans in TRANSFER: a PENDING item is passed: its media record changed by the operation of its direction, the
step timer triggered, PASSED answered and an ITEM notice offered; the last one ends the transfer with ALL_PASSED.
Every other scan changes nothing. An inbound record becomes ACCLIMATIZING until now plus the hold of its class and the
frozen figures. DONE with the matching number in TRANSFER is answered RECORDED and ends the transfer, the PENDING
items MISSING with their missing operations; any other DONE is answered NO_CONSIGNMENT or NOT_EXPECTED. CLOSING starts
the close timeout, continuous, and acts on the hatch's position: locked it is COMPLETE and the inner zone is chimed,
unlocked it is locked, after a dwell in PACED mode, open, or with its unit SILENT, it is awaited, and FAULT aborts. A
chime is an ordinary SOUND CHIME of origin FRS to each sounder of a QUIET zone, and nothing for another. That the
ANSWER stands before the HATCH LOCK of its event, and the chime after all its other work, are the model's choices (log
17). -/
def Obligations.TransferAndClosing : Prop :=
  ((∀ (s : State) (entry : Nat) (p : List Byte) (h : Nat) (he : HatchEntry), s.serves entry →
    s.hatchByStation (s.station entry).addr = some (h, he) → p.length = 9 → (field p 1 8).all identChar = true →
    let dst := (s.station entry).addr
    let served (c : Instr) (d : Direction) : Prop :=
      let w := (s.takeHanded c).begin
      let only (out : Outcome) : Prop := exec c s = .next ((w.answerScan dst p out).finish)
      (s.activeOn h = none → only .noConsignment)
      ∧ (∀ x, s.activeOn h = some x →
          (x.direction ≠ d → only .wrongStation)
          ∧ (x.direction = d → x.state ≠ .transfer → only .notExpected)
          ∧ (x.direction = d → x.state = .transfer →
            ((∀ i ∈ x.items, i.id ≠ field p 1 8) → only .notInConsignment)
            ∧ (∀ i, x.items.find? (fun j => j.id = field p 1 8) = some i →
              (i.status = .passed → only .duplicate)
              ∧ (i.status = .pending → exec c s = .next ((w.passItem dst p x i).finish)))))
    ((s.station entry).kind = .courierTerminal → he.terminal = dst → p.head? = some 2 →
      served (.scanHandover entry p) .outbound)
    ∧ ((s.station entry).kind = .reader → (s.station entry).role = .witness → he.witness = dst → p.head? = some 3 →
      served (.scanReceive entry p) .inbound))
  ∧ (∀ (w : Work) (dst : Nat) (p : List Byte) (c : Consignment) (i : Item),
    let c1 := { c with items := c.items.map (fun j => if j.id = i.id then { j with status := .passed } else j) }
    let w1 := (w.mapState (fun u => ((u.itemOp i.slot (w.passOp c i)).setConsignment c1).setStepTimer c.hatch
      (u.stepTimer c.hatch).trigger)).answerScan dst p .passed
    let w2 := w1.notice (w1.s.handoverNotice c1 2 c.state.code c.state.code)
    ((∃ j ∈ c1.items, j.status = .pending) → w.passItem dst p c i = w2)
    ∧ ((∀ j ∈ c1.items, j.status ≠ .pending) → w.passItem dst p c i = w2.enterClosing c1 .allPassed)
    ∧ (c.direction = .outbound → w.passOp c i = .outboundPass)
    ∧ (∀ f r, c.direction = .inbound → c.frozen = some f → w.s.mediaAt i.slot = some r →
        w.passOp c i = .inboundPass (w.s.hatch c.hatch).inner
          (w.s.tmb.minuteClock + BitVec.ofNat 32 (acclimatizationHold f (w.s.classEntry r.cls)))))
  ∧ (∀ (f : FrozenFigures) (e : ClassEntry),
    let up (n : Nat) : Nat := if n % 10 = 0 then n / 10 else n / 10 + 1
    let raw := e.baseHold + up ((f.meanT - f.innerT).natAbs * e.kT) + up (((f.meanRh : Int) - f.innerRh).natAbs * e.kH)
    let cap := max e.baseHold (2 * f.minutes)
    acclimatizationHold f e = min raw (min cap 4095)
    ∧ (e.baseHold ≤ 1023 → e.baseHold ≤ acclimatizationHold f e ∧ acclimatizationHold f e ≤ 4095)
    ∧ (e.baseHold ≤ 1023 → f.minutes = 0 → acclimatizationHold f e = e.baseHold)))
  ∧ ((∀ (s : State) (entry : Nat) (p : List Byte) (h : Nat) (he : HatchEntry), s.serves entry →
    (s.station entry).kind = .courierTerminal ∨ ((s.station entry).kind = .reader ∧ (s.station entry).role = .witness) →
    s.hatchByStation (s.station entry).addr = some (h, he) → p.length = 2 →
    let dst := (s.station entry).addr
    let w := (s.takeHanded (.doneStep entry p)).begin
    let ends (v : Work) : Prop := exec (.doneStep entry p) s = .next v.finish
    (s.activeOn h = none → ends (w.answerStep dst .done 0 .noConsignment))
    ∧ (∀ c, s.activeOn h = some c →
        (c.direction = .outbound ∧ he.terminal = dst) ∨ (c.direction = .inbound ∧ he.witness = dst) →
        (c.number ≠ nat2 p 0 → ends (w.answerStep dst .done 0 .noConsignment))
        ∧ (c.number = nat2 p 0 → c.state ≠ .transfer → ends (w.answerStep dst .done c.number .notExpected))
        ∧ (c.number = nat2 p 0 → c.state = .transfer →
            ends ((w.answerStep dst .done c.number .recorded).endTransfer c .done))))
  ∧ (∀ (w : Work) (c : Consignment) (cause : EndCause),
    let missed := { c with items := c.items.map (fun (i : Item) => if i.status = ItemStatus.pending then { i with status := ItemStatus.missing } else i) }
    let op := if c.direction = .outbound then ItemOp.outboundMissing else .inboundMissing
    let c1 := { c with state := ConsignState.closing, endCause := some cause }
    w.endTransfer c cause = (w.mapState (fun u => c.items.foldl (fun v i =>
        if i.status = .pending then v.itemOp i.slot op else v) u)).enterClosing missed cause
    ∧ w.enterClosing c cause = ((w.startStep c.hatch (w.s.hatch c.hatch).closeTimeout true false).enter c1 c.state
      ).closingPosition c1)
  ∧ (∀ (w : Work) (c : Consignment),
    let r := w.s.hatchRuntime c.hatch
    let he := w.s.hatch c.hatch
    (r.position = .closedLocked → r.unitSilent = false →
      w.closingPosition c = { w.remove c .complete with chimes := (w.remove c .complete).chimes ++ [he.inner] })
    ∧ (r.position = .closedUnlocked → he.mode = .paced →
      w.closingPosition c = w.mapState (fun u => u.setDwellTimer c.hatch ((u.dwellTimer c.hatch).start he.dwell false false)))
    ∧ (r.position = .closedUnlocked → he.mode ≠ .paced → w.closingPosition c = w.frame he.unit 0x24 [0])
    ∧ (r.position = .opened ∨ r.position = .noReport ∨ (r.position = .closedLocked ∧ r.unitSilent = true) →
      w.closingPosition c = w)
    ∧ (r.position = .fault → w.closingPosition c = w.abort c .hatchFault))
  ∧ (∀ (s : State) (z : Nat),
    (s.fireState z = .quiet → s.chime z = s.originateAll .frs (s.soundersOf z) 0x23 [4, 0])
    ∧ (s.fireState z ≠ .quiet → s.chime z = s)))

/-- An abort: the PENDING items are MISSING and reverted, the lock urgency set, the dwell ended, the STATE notice
offered and HANDOVER_ABORTED raised, and the hatch brought shut: locked, the consignment is removed as ABORTED,
unlocked it is locked, and otherwise awaited under the close timeout. A removal offers the OUTCOME notice, takes the
record from the table, and clears the hatch's timers and marks where the consignment was beyond WAITING. POSITION of a
hatch unit: a report that repeats the last position changes nothing but by the manual flag's rule; a change is stored,
applied to the manual flag, told to the Fire Supervisor for the release gate of the inner zone, and taken by the rules
of the consignment on the hatch: HATCH_FORCED unless the manual flag is set, with an abort of a consignment not yet
unlocked; TRANSFER at the opening of an UNLOCKING hatch; HATCH_FAULT at a FAULT. That a POSITION taken while the unit
is SILENT is served like any other, though a hatch that then reports CLOSED_LOCKED is not known to be closed, is the
model's choice (log 48). -/
def Obligations.PositionsAbortsAndRemovals : Prop :=
  (∀ (w : Work) (c : Consignment),
    let r := w.s.hatchRuntime c.hatch
    let shut := r.position = .closedLocked ∧ r.unitSilent = false
    (∀ why,
      let missed := { c with items := c.items.map (fun (i : Item) => if i.status = ItemStatus.pending then { i with status := ItemStatus.missing } else i) }
      let c1 := { missed with state := ConsignState.aborting, abort := some (why, c.state) }
      let op := if c.direction = .outbound then ItemOp.outboundRevert else .inboundRevert
      let w1 := w.mapState (fun u => c.items.foldl (fun v i => if i.status = .pending then v.itemOp i.slot op else v) u)
      let w2 := (w1.mapState (fun u => u.setDwellTimer c.hatch (u.dwellTimer c.hatch).stop)).setRuntime c.hatch
        (fun x => { x with urgent := decide (why = .fire), dwellDone := false })
      let w3 := (w2.enter c1 c.state).alert .handoverAborted c.hatch
      (shut → w.abort c why = w3.remove c1 .aborted)
      ∧ (¬ shut → w.abort c why
          = (w3.startStep c.hatch (w.s.hatch c.hatch).closeTimeout true false).abortingPosition c1))
    ∧ (shut → w.abortingPosition c = w.remove c .aborted)
    ∧ (r.position = .closedUnlocked → r.urgent = true →
        w.abortingPosition c = { w with frames := w.frames ++ [.urgentLock (w.s.hatch c.hatch).unit] })
    ∧ (r.position = .closedUnlocked → r.urgent = false →
        w.abortingPosition c = { w with frames := w.frames ++ [.ordinary (w.s.hatch c.hatch).unit 0x24 [0]] })
    ∧ (r.position = .opened ∨ r.position = .fault ∨ r.position = .noReport
          ∨ (r.position = .closedLocked ∧ r.unitSilent = true) → w.abortingPosition c = w)
    ∧ (∀ o,
      let w1 : Work := { w with
        notices := w.notices ++ w.s.handoverNotice c 1 c.state.code o.code
        s := w.s.dropConsignment c.number }
      (c.state = .waiting → w.remove c o = w1)
      ∧ (c.state ≠ .waiting → w.remove c o
          = (w1.mapState (fun u => (u.setStepTimer c.hatch (u.stepTimer c.hatch).stop).setDwellTimer c.hatch
              (u.dwellTimer c.hatch).stop)).setRuntime c.hatch
            (fun x => { x with dwellDone := false, unlockRef := none, urgent := false }))))
  ∧ ((∀ (s : State) (entry : Nat) (p : List Byte), s.serves entry → (s.station entry).kind = .hatchUnit →
    let u := s.takeHanded (.position entry p)
    let new : Position := if p = [0] then .closedLocked else if p = [1] then .closedUnlocked else if p = [2] then .opened
      else .fault
    (s.hatchByUnit (s.station entry).addr = none → exec (.position entry p) s = .next u)
    ∧ (∀ h he, s.hatchByUnit (s.station entry).addr = some (h, he) →
        let r := s.hatchRuntime h
        let u1 := u.setHatchRuntime h (manualAfter { r with position := new } new)
        (r.position = new → exec (.position entry p) s = .next u1)
        ∧ (r.position ≠ new → exec (.position entry p) s
            = .next ((((u1.regateRelease he.inner).begin).positionRules h r.position new).finish))))
  ∧ (∀ (r : HatchRuntime) (new : Position),
    (r.manual = false → manualAfter r new = r)
    ∧ (r.manual = true → new = .closedUnlocked ∨ new = .opened ∨ new = .fault →
        manualAfter r new = { r with moved := true })
    ∧ (r.manual = true → new = .closedLocked → r.moved = true → manualAfter r new = { r with manual := false, moved := false })
    ∧ (r.manual = true → new = .closedLocked → r.moved = false → manualAfter r new = r))
  ∧ (∀ (w : Work) (h : Nat) (old new : Position),
    let force := (new = .opened ∨ new = .closedUnlocked) ∧ ¬ (old = .opened ∨ old = .closedUnlocked)
    let w1 := if (w.s.hatchRuntime h).manual = true then w else w.alert .hatchForced h
    (w.s.activeOn h = none → (force → w.positionRules h old new = w1) ∧ (¬ force → w.positionRules h old new = w))
    ∧ (∀ c, w.s.activeOn h = some c →
        (c.state = .awaitCase ∨ c.state = .equalizing ∨ c.state = .offered →
          (force → w.positionRules h old new = w1.abort c .hatchForced)
          ∧ (¬ force → new = .fault → w.positionRules h old new = w.abort c .hatchFault)
          ∧ (¬ force → new ≠ .fault → w.positionRules h old new = w))
        ∧ (c.state = .unlocking → new = .opened → w.positionRules h old new
            = (w.startStep h (w.s.hatch h).transferTimeout false (w.s.hatch h).transferRetrigger).enter
                { c with state := .transfer } .unlocking)
        ∧ (c.state = .unlocking ∨ c.state = .transfer → new = .fault →
            w.positionRules h old new = w.abort c .hatchFault)
        ∧ (c.state = .unlocking → new ≠ .opened → new ≠ .fault → w.positionRules h old new = w)
        ∧ (c.state = .transfer → new ≠ .fault → w.positionRules h old new = w)
        ∧ (c.state = .closing → w.positionRules h old new = w.closingPosition c)
        ∧ (c.state = .aborting → w.positionRules h old new = w.abortingPosition c))))

/-- Expiries of a hatch's step and dwell timers, acknowledged in the event and acted on by the state of the
consignment beyond WAITING; and zone reports, taken in the ACTIVE states for each hatch that has the zone as inner or
outer zone: an evaluation retries the gate, an ALARM aborts with FIRE or makes an abort's lock urgent, another fire
change tests the unlock, UNMONITORED has no effect. That hatches are taken in index order is the model's choice (log
17). So is that an expiry acts although its timer has been started or triggered since it was handed (log 47). -/
def Obligations.ExpiriesAndZoneReports : Prop :=  (∀ (s : State) (h : Nat), Instr.stepTimerExpiry h ∈ s.handed →
    let u := s.takeHanded (.stepTimerExpiry h)
    let w := (u.setStepTimer h { s.stepTimer h with pending := false }).begin
    let r := s.hatchRuntime h
    let ends (v : Work) : Prop := exec (.stepTimerExpiry h) s = .next v.finish
    (s.activeOn h = none → ends w)
    ∧ (∀ c, s.activeOn h = some c →
        (c.state = .awaitCase ∨ c.state = .offered ∨ c.state = .unlocking → ends (w.abort c .timeout))
        ∧ (c.state = .equalizing → ends (w.abort c .condensation))
        ∧ (c.state = .transfer → ends (w.endTransfer c .transferTimeout))
        ∧ (c.state = .closing ∨ c.state = .aborting →
          let w1 := w.alert .hatchOpenTooLong h
          (r.position ≠ .closedUnlocked → ends w1)
          ∧ (r.position = .closedUnlocked → c.state = .closing ∨ r.urgent = false →
            ends (w1.frame (s.hatch h).unit 0x24 [0]))
          ∧ (r.position = .closedUnlocked → c.state = .aborting → r.urgent = true →
            ends { w1 with frames := w1.frames ++ [.urgentLock (s.hatch h).unit] }))))
  ∧ (∀ (s : State) (h : Nat), Instr.dwellTimerExpiry h ∈ s.handed →
    let u := s.takeHanded (.dwellTimerExpiry h)
    let w := (u.setDwellTimer h { s.dwellTimer h with pending := false }).begin
    let ends (v : Work) : Prop := exec (.dwellTimerExpiry h) s = .next v.finish
    (s.activeOn h = none → ends w)
    ∧ (∀ c, s.activeOn h = some c →
        (c.state = .offered → ends ((w.setRuntime h (fun r => { r with dwellDone := true })).testUnlock c))
        ∧ (c.state = .closing → (s.hatch h).mode = .paced → (s.hatchRuntime h).position = .closedUnlocked →
          ends (w.frame (s.hatch h).unit 0x24 [0]))
        ∧ (c.state = .closing → (s.hatch h).mode ≠ .paced ∨ (s.hatchRuntime h).position ≠ .closedUnlocked → ends w)
        ∧ (c.state ≠ .offered → c.state ≠ .closing → ends w)))
  ∧ (∀ (s : State) (z : Nat) (report : ZoneReport), Instr.zoneReport z report ∈ s.handed →
    let u := s.takeHanded (.zoneReport z report)
    (s.active = false → exec (.zoneReport z report) s = .next u)
    ∧ (s.active = true → exec (.zoneReport z report) s
        = .next (((s.hatchesInUse.filter (fun p => p.2.inner = z || p.2.outer = some z)).foldl
            (Work.zoneReportOn report) u.begin).finish)))
  ∧ (∀ (w : Work) (h : Nat) (he : HatchEntry) (report : ZoneReport),
    (w.s.activeOn h = none → w.zoneReportOn report (h, he) = w)
    ∧ (∀ c, w.s.activeOn h = some c →
        (c.state = .equalizing → w.s.gatePasses c = true → w.zoneReportOn .evaluated (h, he) = w.enterOffered c)
        ∧ (c.state ≠ .equalizing ∨ w.s.gatePasses c = false →
          w.zoneReportOn .evaluated (h, he) = w.mapState (fun u => u.setConsignment c))
        ∧ (c.state ≠ .aborting → w.zoneReportOn (.fireChanged .alarm) (h, he) = w.abort c .fire)
        ∧ (c.state = .aborting →
          w.zoneReportOn (.fireChanged .alarm) (h, he) = w.setRuntime h (fun r => { r with urgent := true }))
        ∧ (∀ new, new ≠ .alarm → w.zoneReportOn (.fireChanged new) (h, he) = w.testUnlock c)
        ∧ (∀ flag, w.zoneReportOn (.unmonitoredChanged flag) (h, he) = w)))

/-- CONSIGN: the checks in their order, the items tested in list order; an accepted one books the items and the
consignment, WAITING, at the tail of its hatch's queue. CONSIGN CANCEL: a WAITING consignment is removed as CANCELLED
with its items reverted, an active one aborts, an ABORTING one is removed at once. A WAITING consignment whose life
has run out expires at a minute. The model's choices: item positions count from 1 (log 15) and have one byte in the
REPLY (DEDUCED, log 50), the REPLY of CONSIGN CANCEL follows all frames, notices and alerts of its event (log 17), and
the consignments of one minute expire in order of creation (log 9). -/
def Obligations.ConsignAndCancel : Prop :=  (∀ (s : State) (tag : Byte) (n d h : Nat) (courier : Ident) (ids : List Ident), s.ready →
    let c := Instr.consign tag n d h courier ids
    let u := s.requested c
    let formed := d ≤ 1 ∧ (∀ x ∈ courier :: ids, x.length = 8 ∧ x.all identChar = true)
    let dir := if d = 0 then Direction.outbound else .inbound
    let full := 8 ≤ s.hoc.consignments.length
    let known := s.consignment n ≠ none
    let range := n = 0 ∨ ids = [] ∨ 24 < ids.length ∨ 3 < h
    (¬ formed → exec c s = .next (u.reply 0x30 tag .malformed []))
    ∧ (formed → full → exec c s = .next (u.reply 0x30 tag .full []))
    ∧ (formed → ¬ full → known → exec c s = .next (u.replyRefused 0x30 tag .duplicate []))
    ∧ (formed → ¬ full → ¬ known → range → exec c s = .next (u.reply 0x30 tag .range []))
    ∧ (formed → ¬ full → ¬ known → ¬ range → (s.hatch h).unit = 0 →
        exec c s = .next (u.replyRefused 0x30 tag .noHatch []))
    ∧ (formed → ¬ full → ¬ known → ¬ range → (s.hatch h).unit ≠ 0 →
        let fits (id : Ident) : Prop := ∃ slot r, s.mediaById id = some (slot, r)
          ∧ (dir = .outbound → r.custody = .shelved ∧ r.manual = false ∧ r.agent = false) ∧ (dir = .inbound → r.custody = .out)
        (∀ front id back, ids = front ++ id :: back → (∀ x ∈ front, fits x) → front.Nodup →
          let at1 := byteOf (front.length + 1)
          (s.mediaById id = none → exec c s = .next (u.reply 0x30 tag .notFound [at1]))
          ∧ (s.mediaById id ≠ none → id ∈ front → exec c s = .next (u.replyRefused 0x30 tag .duplicateItem [at1]))
          ∧ (∀ slot r, s.mediaById id = some (slot, r) → id ∉ front →
              ((dir = .outbound ∧ r.custody ≠ .shelved) ∨ (dir = .inbound ∧ r.custody ≠ .out) →
                exec c s = .next (u.replyRefused 0x30 tag .state [at1, byteOf r.custody.code]))
              ∧ (dir = .outbound → r.custody = .shelved → r.manual = true ∨ r.agent = true →
                exec c s = .next (u.replyRefused 0x30 tag .hold [at1]))))
        ∧ ((∀ x ∈ ids, fits x) → ids.Nodup → ∃ items : List Item,
            items.map Item.id = ids ∧ (∀ i ∈ items, i.status = .pending ∧ (s.mediaById i.id).map Prod.fst = some i.slot)
            ∧ exec c s = .next (((items.foldl (fun v i => v.itemOp i.slot
                  (if dir = .outbound then .outboundConsign n else .inboundConsign n)) u).addConsignment
                ⟨n, dir, h, courier, s.tmb.minuteClock, .waiting, items, false, false, none, none, none, none, none⟩).reply
                  0x30 tag .done []))))
  ∧ (∀ (s : State) (c : Consignment),
    s.addConsignment c = { s with hoc := { s.hoc with consignments := s.hoc.consignments ++ [c] } }
    ∧ (s.addConsignment c).hatchQueue c.hatch = s.hatchQueue c.hatch ++ [c.number]
    ∧ ∀ h, h ≠ c.hatch → (s.addConsignment c).hatchQueue h = s.hatchQueue h)
  ∧ (∀ (s : State) (tag : Byte) (n : Nat), s.ready →
    let u := s.requested (.consignCancel tag n)
    (s.consignment n = none → exec (.consignCancel tag n) s = .next (u.reply 0x31 tag .notFound []))
    ∧ (∀ c, s.consignment n = some c →
        (c.state = .waiting → exec (.consignCancel tag n) s
          = .next (((u.begin.dropWaiting c .cancelled).finish).reply 0x31 tag .done [0x0B]))
        ∧ (c.state = .aborting → exec (.consignCancel tag n) s
          = .next (((u.begin.remove c .aborted).finish).reply 0x31 tag .done [0x09]))
        ∧ (c.state ≠ .waiting → c.state ≠ .aborting → exec (.consignCancel tag n) s
          = .next (((u.begin.abort c .cancelled).finish).reply 0x31 tag .done [0x07]))))
  ∧ (∀ (s : State),
    (s.active = false → s.handoverMinute = s)
    ∧ (s.active = true → s.handoverMinute = ((s.hoc.consignments.filter (fun c =>
        decide (c.state = .waiting) && decide ((s.hatch c.hatch).life ≠ 0)
          && decide ((s.hatch c.hatch).life ≤ (s.tmb.minuteClock - c.created).toNat))).foldl
            (fun w c => w.dropWaiting c .expired) s.begin).finish))
  ∧ (∀ (w : Work) (c : Consignment) (o : HandoverEnd),
    let op := if c.direction = .outbound then ItemOp.outboundRevert else .inboundRevert
    w.dropWaiting c o
      = (w.mapState (fun u => c.items.foldl (fun v i => if i.status = .pending then v.itemOp i.slot op else v) u)).remove
          { c with items := c.items.map (fun (i : Item) => if i.status = ItemStatus.pending then { i with status := ItemStatus.missing } else i) } o)

/-! ### Alerts (R158 to R165) -/

/-- The shared operations change nothing but what they report or send: a report changes the site queue, the alert table with
its held mark and the ALERT pulse; a frame for the field also the field queues and the segment with the marks of the tests
made when a frame is taken for sending. Every next state written with them leaves the rest of the part as it was. -/
def Obligations.ReportsAndFieldFramesChangeNothingElse : Prop :=  ∀ s : State,
    (∀ item, Reported s (s.offerSite item)) ∧ (∀ p, Reported s (s.offerNotice p))
    ∧ (∀ kind tag st results, Reported s (s.reply kind tag st results))
    ∧ (∀ kind tag why results, Reported s (s.replyRefused kind tag why results))
    ∧ (∀ k src, Reported s (s.raiseCondition k src) ∧ Reported s (s.lower k src) ∧ Reported s (s.raiseEvent k src))
    ∧ Sent s s.arbitrate
    ∧ (∀ item, Sent s (s.offerOrdinary item))
    ∧ (∀ dst kind p, Sent s (s.queueUrgent dst kind p) ∧ ∀ o, Sent s (s.originate o dst kind p))
    ∧ (∀ w : Work, Sent w.s w.finish)

/-- A latch of a kind: latched, the count one higher, 255 staying, and the last source; unmasked it offers the ALERT notice of
the record after it, and with the held mark CLEAR starts the 200 ms pulse, or triggers a running one. A raise of a condition
kind for a source not present adds the source, recomputes the held mark for a held-class kind and latches; for one present it
changes nothing. A lower removes a present source and recomputes the held mark, and otherwise changes nothing. The held mark
is SET while an unmasked held-class kind is present; the line is low while it is SET or a pulse runs. That the raises of one
event are taken one by one, so that a latch does not see the held mark of a later rise, is the model's choice (log 45). -/
def Obligations.AlertsRiseLatchAndFall : Prop :=  ∀ (s : State) (k : AlertKind) (src : Nat),
    let r := s.alertRec k.code
    let holds (u : State) (j : AlertKind) : Bool := j.isHeld && !(u.alertRec j.code).masked
      && !(u.alertRec j.code).present.isEmpty
    let heldNow (u : State) : State :=
      if k.isHeld then { u with alb := { u.alb with held := AlertKind.all.any (holds u) } } else u
    let count := if r.count < 255 then r.count + 1 else r.count
    let u := s.setAlertRec k.code { r with latched := true, count := count, lastSource := some src }
    let present := if k.isCondition then r.present.length else 0
    let v := u.offerNotice ([0, byteOf k.code, if k.isCondition then 0 else 1, byteOf k.sourceType, byteOf (src / 256), byteOf src,
      byteOf count, byteOf present] ++ enc4 s.tmb.minuteClock)
    (r.masked = true → s.latch k src = u)
    ∧ (r.masked = false → v.alb.held = true → s.latch k src = v)
    ∧ (r.masked = false → v.alb.held = false → v.tmb.pulse.running = false →
        s.latch k src = v.setPulse (v.tmb.pulse.start 200 false true))
    ∧ (r.masked = false → v.alb.held = false → v.tmb.pulse.running = true →
        s.latch k src = v.setPulse v.tmb.pulse.trigger)
    ∧ s.raiseEvent k src = s.latch k src
    ∧ (src ∈ r.present → s.raiseCondition k src = s)
    ∧ (src ∉ r.present →
        s.raiseCondition k src = (heldNow (s.setAlertRec k.code { r with present := insertSorted r.present src })).latch k src)
    ∧ (src ∉ r.present → s.lower k src = s)
    ∧ (src ∈ r.present → s.lower k src = heldNow (s.setAlertRec k.code { r with present := eraseNat r.present src }))
    ∧ (∀ x, (x ∈ insertSorted r.present src ↔ x = src ∨ x ∈ r.present)
        ∧ (x ∈ eraseNat r.present src ↔ x ∈ r.present ∧ x ≠ src))
    ∧ (k.isHeld = true ↔ k ∈ [AlertKind.climateCritical, .zoneUnmonitored, .fireAlarm, .releaseCountdown, .released,
        .supervisionLost])
    ∧ (s.alertLow = true ↔ s.alb.held = true ∨ s.tmb.pulse.running = true)

/-- CLEAR ALERTS clears the latch, count and last source of every kind named whose condition is absent, and lists the
others in kind order with STILL_ACTIVE; SET MASK sets the masks of the kinds named, recomputes the held mark and
answers every mask. A code outside the 23 kinds is MALFORMED, and a mask for FIRE_ALARM, RELEASE_COUNTDOWN or RELEASED
is REFUSED with the first of them. That the first of them is the first in kind order (10, then 11, then 12), and the
masks of the REPLY without a count byte, are the model's readings (DEDUCED, log 18). -/
def Obligations.AlertRequests : Prop :=  ∀ (s : State) (tag : Byte) (codes : List Nat), s.ready →
    (let u := s.requested (.clearAlerts tag codes)
     let still := AlertKind.all.filter (fun k => decide (k.code ∈ codes) && !(s.alertRec k.code).present.isEmpty)
     ((∃ c ∈ codes, 22 < c) → exec (.clearAlerts tag codes) s = .next (u.reply 0x40 tag .malformed []))
     ∧ ((∀ c ∈ codes, c ≤ 22) → ∃ v : State, v = { u with alb := v.alb } ∧ v.alb.held = s.alb.held
        ∧ (∀ j, v.alertRec j = if j ∈ codes ∧ (s.alertRec j).present = [] then
            { s.alertRec j with latched := false, count := 0, lastSource := none } else s.alertRec j)
        ∧ (still = [] → exec (.clearAlerts tag codes) s = .next (v.reply 0x40 tag .done []))
        ∧ (still ≠ [] → exec (.clearAlerts tag codes) s
            = .next (v.reply 0x40 tag .stillActive (byteOf still.length :: still.map (fun k => byteOf k.code))))))
    ∧ (∀ value,
        let u := s.requested (.setMask tag value codes)
        let refused (code : Nat) := exec (.setMask tag value codes) s
          = .next (u.replyRefused 0x41 tag .unmaskable [byteOf code])
        ((∃ c ∈ codes, 22 < c) ∨ 1 < value → exec (.setMask tag value codes) s = .next (u.reply 0x41 tag .malformed []))
        ∧ ((∀ c ∈ codes, c ≤ 22) → value = 1 → (10 ∈ codes → refused 10) ∧ (10 ∉ codes → 11 ∈ codes → refused 11)
            ∧ (10 ∉ codes → 11 ∉ codes → 12 ∈ codes → refused 12))
        ∧ ((∀ c ∈ codes, c ≤ 22) → value = 0 ∨ (value = 1 ∧ 10 ∉ codes ∧ 11 ∉ codes ∧ 12 ∉ codes) →
            ∃ v : State, v = { u with alb := v.alb }
            ∧ (∀ j, v.alertRec j = if j ∈ codes then { s.alertRec j with masked := decide (value = 1) } else s.alertRec j)
            ∧ v.alb.held = AlertKind.all.any (fun k => k.isHeld && !(v.alertRec k.code).masked
                && !(v.alertRec k.code).present.isEmpty)
            ∧ exec (.setMask tag value codes) s = .next (v.reply 0x41 tag .done
                (AlertKind.all.map (fun k => if (v.alertRec k.code).masked then 1 else 0)))))

/-! ### Supervision and fallback (R147 to R156) -/

/-- The fallback commands of a zone, the first line that holds, and a computation: for a zone below ALARM the commands are
stored and a DRIVE of origin CLS is queued to each actuator of a function whose command changed, OFF before ON, in station
table index order; for a zone in ALARM or later nothing is computed. -/
def Obligations.FallbackCommandsOfAZone : Prop :=  (∀ (p : Profile) (c : ClimateRec),
    (c.state = .noData → fallbackCommands p c = (false, false))
    ∧ (∀ r, c.state ≠ .noData → c.reading = some r →
        (p.high < r.rh → fallbackCommands p c = (false, true))
        ∧ (r.rh ≤ p.high → r.rh < p.low → fallbackCommands p c = (true, false))
        ∧ (r.rh ≤ p.high → p.low ≤ r.rh →
            (p.low + p.hyst ≤ r.rh → r.rh + p.hyst ≤ p.high → fallbackCommands p c = (false, false))
            ∧ (r.rh < p.low + p.hyst ∨ p.high < r.rh + p.hyst →
                fallbackCommands p c = (c.humidifier, c.dehumidifier)))))
  ∧ (∀ (s : State) (z : Nat),
    let c := s.climate z
    let new := fallbackCommands (s.profile (s.zone z).profile) c
    let changed (on : Bool) (f : Function) : Bool := decide (f = .humidifier ∧ c.humidifier ≠ new.1 ∧ new.1 = on)
      || decide (f = .dehumidifier ∧ c.dehumidifier ≠ new.2 ∧ new.2 = on)
    ((s.fireState z).latched = true → s.computeFallback z = s)
    ∧ ((s.fireState z).latched = false → s.computeFallback z
        = ((s.setClimate z { c with humidifier := new.1, dehumidifier := new.2 }).originateAll .cls
            (s.actuatorsOf z (changed false)) 0x22 [0]).originateAll .cls (s.actuatorsOf z (changed true)) 0x22 [1]))

/-- An expiry of the supervision timer is acknowledged; in ACTIVE_SUPERVISED it makes the part ACTIVE_AUTONOMOUS, the
timer stopped, raises SUPERVISION_LOST with source SITE and begins fallback drive: both commands of every zone OFF,
the retry timer started, continuous, with the live RETRY_INTERVAL, and the commands of every zone computed in zone
order. RESUME in ACTIVE_AUTONOMOUS undoes it: the state, SUPERVISION_LOST lowered, the supervision timer started, or
stopped if the live timeout is 0, the retry timer stopped, the REPLY; elsewhere it is REFUSED, NOT_AUTONOMOUS. That an
expiry already handed is taken although a REQUEST has since triggered the timer, or a SET LIVE made the live timeout
0, is the model's choice (log 44). -/
def Obligations.SupervisionLossAndResume : Prop :=  ∀ s : State,
    (Instr.supervisionTimerExpiry ∈ s.handed →
      let s0 := s.takeHanded .supervisionTimerExpiry
      (s.mga.partState ≠ .supervised →
        exec .supervisionTimerExpiry s = .next (s0.setSupervision { s.tmb.supervision with pending := false }))
      ∧ (s.mga.partState = .supervised →
        let u := s0.setSupervision { s.tmb.supervision with running := false, remaining := 0, pending := false }
        let a := State.raiseCondition { u with mga := { u.mga with partState := .autonomous } } .supervisionLost 0
        let b := (List.range 16).foldl
          (fun x z => x.setClimate z { x.climate z with humidifier := false, dehumidifier := false }) a
        let c := b.setRetry (s.tmb.retry.start s.mga.live.retryInterval true false)
        exec .supervisionTimerExpiry s = .next ((List.range 16).foldl State.computeFallback c)))
    ∧ (∀ tag, s.ready →
      let u := s.requested (.resume tag)
      (s.mga.partState ≠ .autonomous → exec (.resume tag) s = .next (u.replyRefused 0x42 tag .notAutonomous []))
      ∧ (s.mga.partState = .autonomous →
        let a := State.lower { u with mga := { u.mga with partState := .supervised } } .supervisionLost 0
        let b := a.setSupervision (if s.mga.live.supervisionTimeout = 0 then s.tmb.supervision.stop
          else s.tmb.supervision.start s.mga.live.supervisionTimeout false true)
        exec (.resume tag) s = .next ((b.setRetry s.tmb.retry.stop).reply 0x42 tag .done [1])))

/-- An expiry of the autonomous retry timer, plain or an overrun. In ACTIVE_AUTONOMOUS every climate actuator driven
in fallback is visited, in station table index order: one for which a frame of origin CLS waits in the ordinary queue
is skipped and gives RETRY_OVERRUN with its address, another is queued a DRIVE with its zone's current command; within
each zone frames with OFF precede frames with ON. The expiry is acknowledged if none was skipped. In any other part
state it is acknowledged without effect. That a frame with ON whose zone has a frame with OFF later in the table
stands just after the last of these, every other visit keeping its place, is the model's choice (log 16). So is that
an expiry acts although the timer has been started since it was handed (log 47). -/
def Obligations.RetryExpiryDrivesAgain : Prop :=  (∀ (s : State) (overrun : Bool), Instr.retryTimerExpiry overrun ∈ s.handed →
    let u := s.takeHanded (.retryTimerExpiry overrun)
    let act (x : State) (v : FallbackVisit) : State :=
      if v.waits then x.raiseEvent .retryOverrun v.addr else x.originate .cls v.addr 0x22 [if v.on then 1 else 0]
    let w := (offBeforeOn s.fallbackVisits).foldl act u
    (s.mga.partState ≠ .autonomous →
      exec (.retryTimerExpiry overrun) s = .next (u.setRetry { s.tmb.retry with pending := false }))
    ∧ (s.mga.partState = .autonomous →
      ((∀ v ∈ s.fallbackVisits, v.waits = false) →
        exec (.retryTimerExpiry overrun) s = .next (w.setRetry { s.tmb.retry with pending := false }))
      ∧ ((∃ v ∈ s.fallbackVisits, v.waits = true) → exec (.retryTimerExpiry overrun) s = .next w)))
  ∧ (∀ s : State,
    (s.fallbackVisits.map FallbackVisit.addr).Sublist (s.stationList.map (fun p => p.2.addr))
    ∧ (∀ v, v ∈ s.fallbackVisits ↔ ∃ p ∈ s.stationList, p.2.addr = v.addr ∧ p.2.kind = .actuator
        ∧ p.2.zone = some v.zone ∧ (s.fireState v.zone).latched = false
        ∧ ((s.actuator p.2.index = .humidifier ∧ v.on = (s.climate v.zone).humidifier)
            ∨ (s.actuator p.2.index = .dehumidifier ∧ v.on = (s.climate v.zone).dehumidifier))
        ∧ v.waits = s.fsp.ordinary.any (fun it => decide (it.origin = .cls ∧ it.frame.dst = v.addr))))
  ∧ (∀ visits : List FallbackVisit,
    let sendsOff (z : Nat) (v : FallbackVisit) : Prop := v.waits = false ∧ v.on = false ∧ v.zone = z
    let sendsOn (v : FallbackVisit) : Prop := v.waits = false ∧ v.on = true
    (offBeforeOn visits).Perm visits
    ∧ (offBeforeOn visits).Pairwise (fun v w => ¬ (sendsOn v ∧ sendsOff v.zone w))
    ∧ offBeforeOn [] = []
    ∧ (∀ v, ¬ sendsOn v ∨ (∀ w ∈ visits, ¬ sendsOff v.zone w) → offBeforeOn (v :: visits) = v :: offBeforeOn visits)
    ∧ (∀ v front w back, sendsOn v → offBeforeOn visits = front ++ w :: back → sendsOff v.zone w →
        (∀ x ∈ back, ¬ sendsOff v.zone x) → offBeforeOn (v :: visits) = front ++ w :: v :: back))

/-! ### Requests, tables and the store (R147, R168 to R183) -/

/-- The exchange every REQUEST shares: in ACTIVE_SUPERVISED it triggers the supervision timer, which a live timeout of
0 leaves stopped (log 27); while a restart is pending it is discarded, and while the activation check is computed it
is answered BUSY. A REPLY, addressed with the live values, carries the kind, the tag, the status, the reason or 0, and
the results; a REQUEST that cannot be read is answered MALFORMED with the kind and tag as received, a missing one
being a free value (log 10); IDENT is answered with the five identity results. A REQUEST payload (kind, tag, parameter
length, parameters) is read as the command of its kind with the parameters in the order of 11.4; a payload too short,
with another parameter length than it carries, of an unknown kind, or with parameters that have not the length of the
kind's layout cannot be read. -/
def Obligations.RequestsShareOneExchange : Prop :=  (∀ (s : State) (c : Instr),
    (s.mga.partState = .supervised → s.mga.live.supervisionTimeout ≠ 0 →
      s.requested c = (s.takeHanded c).setSupervision s.tmb.supervision.trigger)
    ∧ (s.mga.partState ≠ .supervised ∨ s.mga.live.supervisionTimeout = 0 → s.requested c = s.takeHanded c)
    ∧ s.takeHanded c = { s with handed := s.handed.erase c }
    ∧ (∀ kind tag, requestHead c = some (kind, tag) →
        (s.mga.restartPending = true → exec c s = .next (s.requested c))
        ∧ (s.mga.restartPending = false → s.mga.check ≠ none →
            exec c s = .next ((s.requested c).reply kind tag .busy []))))
  ∧ (∀ (s : State) (kind : Nat) (tag : Byte) (results : List Byte), results.length ≤ 251 →
    let reply (status why : Nat) := s.offerSite ⟨⟨s.mga.live.siteAddress, s.mga.live.ownAddress, 0x31,
      [byteOf kind, tag, byteOf status, byteOf why] ++ results⟩, .reply⟩
    (∀ st, s.reply kind tag st results = reply st.code 0)
    ∧ (∀ why, s.replyRefused kind tag why results = reply 1 why.code)
    ∧ s.offerNotice results = s.offerSite ⟨⟨s.mga.live.siteAddress, s.mga.live.ownAddress, 0x32, results⟩, .notice⟩)
  ∧ [Status.done, .refused, .malformed, .notFound, .full, .busy, .exhausted, .stillActive, .range].map Status.code
      = List.range 9
  ∧ [Reason.notInConfig, .notActive, .autonomous, .notAutonomous, .tableCheck, .tableConsistency, .badEntry, .noWindow,
      .handoverActive, .fireActive, .addressClash, .duplicate, .duplicateItem, .state, .hold, .noHatch, .fire,
      .notSilenceable, .notFitted, .notInAlarm, .alreadyReleasing, .notLatched, .detectorsActive, .unmaskable].map Reason.code
      = (List.range 24).map (· + 1)
  ∧ (∀ (s : State) (kind tag : Byte) (rest : List Byte), s.ready →
    let answered (p : List Byte) (k t : Byte) : Prop := exec (.malformedRequest p) s
      = .next ((s.requested (.malformedRequest p)).reply k.toNat t .malformed [])
    answered (kind :: tag :: rest) kind tag ∧ (∃ t, answered [kind] kind t) ∧ ∃ k t, answered [] k t)
  ∧ (∀ p : List Byte, p.length < 3 ∨ nat1 p 2 ≠ p.length - 3 ∨ nat1 p 0 ∉ [0x01, 0x02, 0x03, 0x04, 0x05, 0x06, 0x07, 0x08,
      0x10, 0x11, 0x12, 0x13, 0x14, 0x20, 0x21, 0x22, 0x23, 0x24, 0x25, 0x30, 0x31, 0x40, 0x41, 0x42, 0x50, 0x51] →
    readRequest p = .malformedRequest p)
  ∧ (∀ (tag : Byte) (p : List Byte), p.length ≤ 252 →
    let payload (kind : Byte) : List Byte := [kind, tag, byteOf p.length] ++ p
    let reads (kind : Byte) (c : Instr) : Prop := readRequest (payload kind) = c
    let bad (kind : Byte) : Prop := readRequest (payload kind) = .malformedRequest (payload kind)
    (p.length = 0 → reads 0x01 (.ident tag) ∧ reads 0x07 (.deactivate tag) ∧ reads 0x08 (.restart tag)
      ∧ reads 0x42 (.resume tag))
    ∧ (p.length ≠ 0 → bad 0x01 ∧ bad 0x07 ∧ bad 0x08 ∧ bad 0x42)
    ∧ (p.length = 1 → reads 0x05 (.tableRead tag (nat1 p 0)) ∧ reads 0x11 (.zoneClearExposure tag (nat1 p 0))
      ∧ reads 0x12 (.zoneFireReset tag (nat1 p 0)) ∧ reads 0x13 (.zoneRelease tag (nat1 p 0))
      ∧ reads 0x14 (.zoneSilence tag (nat1 p 0)))
    ∧ (p.length ≠ 1 → bad 0x05 ∧ bad 0x11 ∧ bad 0x12 ∧ bad 0x13 ∧ bad 0x14)
    ∧ (p.length = 2 → reads 0x03 (.tableOpen tag (nat1 p 0) (nat1 p 1)) ∧ reads 0x06 (.activate tag (nat2 p 0))
      ∧ reads 0x10 (.zoneProfile tag (nat1 p 0) (nat1 p 1)) ∧ reads 0x31 (.consignCancel tag (nat2 p 0)))
    ∧ (p.length ≠ 2 → bad 0x03 ∧ bad 0x06 ∧ bad 0x10 ∧ bad 0x31)
    ∧ (p.length = 3 → reads 0x50 (.storeBurn tag (nat1 p 0) (nat2 p 1)) ∧ reads 0x51 (.setLive tag (nat1 p 0) (nat2 p 1)))
    ∧ (p.length ≠ 3 → bad 0x50 ∧ bad 0x51)
    ∧ (p.length = 8 → reads 0x21 (.mediaDelete tag p) ∧ reads 0x25 (.mediaQuery tag p))
    ∧ (p.length ≠ 8 → bad 0x21 ∧ bad 0x25)
    ∧ (p.length = 9 → reads 0x02 (.read tag (nat1 p 0) (p.drop 1)) ∧ reads 0x22 (.mediaMove tag (p.take 8) (nat1 p 8))
      ∧ reads 0x23 (.mediaHoldSet tag (p.take 8) (nat1 p 8)) ∧ reads 0x24 (.mediaHoldClear tag (p.take 8) (nat1 p 8)))
    ∧ (p.length ≠ 9 → bad 0x02 ∧ bad 0x22 ∧ bad 0x23 ∧ bad 0x24)
    ∧ (p.length = 11 → reads 0x20 (.mediaEnter tag (p.take 8) (nat1 p 8) (nat1 p 9) (nat1 p 10)))
    ∧ (p.length ≠ 11 → bad 0x20)
    ∧ (p ≠ [] → reads 0x04 (.tableWrite tag (nat1 p 0) (p.drop 1)))
    ∧ (p = [] → bad 0x04)
    ∧ (p.length = 13 + 8 * nat1 p 12 → reads 0x30 (.consign tag (nat2 p 0) (nat1 p 2) (nat1 p 3) (field p 4 8)
        ((List.range (nat1 p 12)).map (fun k => field p (13 + 8 * k) 8))))
    ∧ (p.length ≠ 13 + 8 * nat1 p 12 → bad 0x30)
    ∧ (p.length = 1 + nat1 p 0 → reads 0x40 (.clearAlerts tag ((p.drop 1).map BitVec.toNat)))
    ∧ (p.length ≠ 1 + nat1 p 0 → bad 0x40)
    ∧ (p.length = 2 + nat1 p 1 → reads 0x41 (.setMask tag (nat1 p 0) ((p.drop 2).map BitVec.toNat)))
    ∧ (p.length ≠ 2 + nat1 p 1 → bad 0x41))
  ∧ (∀ (s : State) (tag : Byte), s.ready →
    exec (.ident tag) s = .next ((s.requested (.ident tag)).reply 0x01 tag .done
      ([0x0C, 0x5D, 0x01, 0xA0, 2] ++ enc2 s.mga.live.vaultId ++ enc2 s.mga.live.ownAddress)))

/-- READ changes nothing but by its REPLY, in every part state: the record of its selector, RANGE for an index outside
its range, NOT_FOUND for a record that does not exist, MALFORMED for another selector or an index that is no
identifier. The bytes of each record follow the widths and codes of chapter 11. Which fields take presence bytes (log
14), the count byte of an event kind's record (log 18), and that index bytes after a number are not read (log 21), are
the model's readings. -/
def Obligations.ReadAnswersEachSelector : Prop :=  (∀ (s : State) (tag : Byte) (sel : Nat) (index : List Byte), s.ready →
    let u := s.requested (.read tag sel index)
    let i := nat2 index 0
    let done (results : List Byte) : Prop := exec (.read tag sel index) s = .next (u.reply 0x02 tag .done results)
    let only (st : Status) : Prop := exec (.read tag sel index) s = .next (u.reply 0x02 tag st [])
    (sel = 0x00 → done (enc1 s.mga.partState.code ++ enc4 s.tmb.minuteClock ++ enc1 s.tmb.secondCount
        ++ u.tmb.supervision.image ++ s.tmb.retry.image ++ encBool s.tmb.retry.pending ++ [0, 0]
        ++ (match s.mga.window with
            | some (t, p) => enc1 t.code ++ enc2 p
            | none => [0xFF, 0, 0])
        ++ (match s.mga.burn with
            | some b => [1] ++ enc1 b.item.code ++ enc2 b.value
            | none => [0, 0, 0, 0])
        ++ enc2 s.mga.live.ownAddress ++ enc2 s.mga.live.siteAddress ++ enc2 s.mga.live.supervisionTimeout
        ++ enc2 s.mga.live.retryInterval ++ enc2 s.mga.live.vaultId))
    ∧ (sel = 0x01 → (i < 16 → done (s.entryImage .zone i ++ (s.climate i).image ++ (s.fire i).image ++ (s.releaseTimer i).image))
        ∧ (16 ≤ i → only .range))
    ∧ (sel = 0x02 → (i < 64 → done (s.entryImage .probe i ++ (s.probeState i).image)) ∧ (64 ≤ i → only .range))
    ∧ (sel = 0x03 → (i < 96 → done [byteOf (s.inputKind i).code, byteOf (s.inputStage i).code]) ∧ (96 ≤ i → only .range))
    ∧ (sel = 0x04 → (i < 192 → done (s.entryImage .station i ++ [byteOf (s.stationRuntime i).missed,
        if (s.stationRuntime i).silent then 1 else 0] ++ lastForwardedImage (s.stationRuntime i).lastForwarded))
        ∧ (192 ≤ i → only .range))
    ∧ (sel = 0x05 → (i < 4 → done (s.entryImage .hatch i ++ (s.hatchRuntime i).image
        ++ encList ((s.hatchQueue i).map enc2) ++ (s.stepTimer i).image ++ (s.dwellTimer i).image)) ∧ (4 ≤ i → only .range))
    ∧ (sel = 0x06 → (i = 0 → only .range) ∧ (i ≠ 0 → s.consignment i = none → only .notFound)
        ∧ (∀ c, i ≠ 0 → s.consignment i = some c → done c.image))
    ∧ (sel = 0x07 → index.length = 8 →
        (index.all identChar = false → only .malformed)
        ∧ (index.all identChar = true → s.mediaById index = none → only .notFound)
        ∧ (∀ slot r, index.all identChar = true → s.mediaById index = some (slot, r) → done (r.image ++ enc2 slot)))
    ∧ (sel = 0x08 → (4096 ≤ i → only .range) ∧ (i < 4096 → s.mediaAt i = none → only .notFound)
        ∧ (∀ r, i < 4096 → s.mediaAt i = some r → done r.image))
    ∧ (sel = 0x09 → done (AlertKind.all.flatMap (fun k => AlertRec.image k (s.alertRec k.code))
        ++ [if s.alb.held then 1 else 0, if s.tmb.pulse.running then 1 else 0, if s.alertLow then 1 else 0]))
    ∧ (sel = 0x0A → done (StoreItem.all.flatMap (fun j => enc2 (s.mga.stored.get j) ++ enc1 (s.mga.burns.get j)
        ++ enc2 (s.mga.live.get j)) ++ (match s.mga.burn with
          | some b => [1] ++ enc1 b.item.code ++ enc2 b.value
          | none => [0, 0, 0, 0])))
    ∧ (0x0A < sel → only .malformed))
  ∧ (let yes (x : Bool) : Byte := if x then 1 else 0
    (∀ t : Timer, t.image = enc2 t.load ++ enc2 t.remaining ++ [yes t.running, yes t.gated])
    ∧ (∀ rh t, ProbeState.image (.valid rh t) = [1] ++ enc2 rh ++ encSigned2 t)
    ∧ ProbeState.image .noSample = [0, 0, 0, 0, 0] ∧ ProbeState.image .fault = [2, 0, 0, 0, 0]
    ∧ ProbeState.image .silent = [3, 0, 0, 0, 0]
    ∧ (∀ n bytes, lastForwardedImage (some ⟨n, bytes⟩) = [1, byteOf n] ++ field bytes 0 16)
    ∧ lastForwardedImage none = List.replicate 18 0
    ∧ (∀ c : ClimateRec, c.image = [byteOf c.state.code]
        ++ (match c.reading with
            | some r => enc2 r.rh ++ encSigned2 r.t ++ encSigned2 r.td
            | none => List.replicate 6 0)
        ++ [byteOf c.validCount, byteOf c.candidate] ++ enc2 c.exposure ++ [yes c.exposed, yes c.humidifier, yes c.dehumidifier])
    ∧ (∀ f : FireRec, f.image = [byteOf f.state.code]
        ++ (match f.cause with
            | some k => [byteOf k.code]
            | none => [0])
        ++ encZoneSet f.coupledSources ++ [yes f.silenced, yes f.unmonitored])
    ∧ (∀ r : HatchRuntime, r.image = [byteOf r.position.code, yes r.unitSilent, yes r.manual, yes r.moved, yes r.dwellDone]
        ++ (match r.unlockRef with
            | some n => [1] ++ enc2 n
            | none => [0, 0, 0])
        ++ [yes r.urgent])
    ∧ (∀ c : Consignment, c.image = enc2 c.number ++ [byteOf c.direction.code, byteOf c.hatch] ++ field c.courier 0 8
        ++ enc4 c.created ++ [byteOf c.state.code, byteOf c.items.length]
        ++ c.items.flatMap (fun i => field i.id 0 8 ++ enc2 i.slot ++ [byteOf i.status.code])
        ++ [yes c.acceptReceived, yes c.confirmReceived]
        ++ (match c.caseFigures with
            | some f => encSigned2 f.meanT ++ enc2 f.meanRh ++ enc2 f.minutes
            | none => List.replicate 6 0)
        ++ (match c.caseTemp with
            | some t => [1] ++ encSigned2 t
            | none => [0, 0, 0])
        ++ (match c.frozen with
            | some f => encSigned2 f.meanT ++ enc2 f.meanRh ++ enc2 f.minutes ++ encSigned2 f.innerT ++ enc2 f.innerRh
            | none => List.replicate 10 0)
        ++ (match c.abort with
            | some (why, before) => [byteOf why.code, byteOf before.code]
            | none => [0, 0])
        ++ (match c.endCause with
            | some e => [byteOf e.code]
            | none => [0]))
    ∧ (∀ r : MediaRec, r.image = field r.id 0 8 ++ [byteOf r.cls, byteOf r.home, byteOf r.custody.code,
          byteOf ((if r.manual then 1 else 0) + (if r.agent then 2 else 0))]
        ++ (match r.custody with
            | .checkedOut since (some due) reported => enc4 since ++ [1] ++ enc4 due ++ [yes reported] ++ List.replicate 6 0
            | .checkedOut since none reported => enc4 since ++ List.replicate 5 0 ++ [yes reported] ++ List.replicate 6 0
            | .acclimatizing release => List.replicate 10 0 ++ enc4 release ++ [0, 0]
            | .consigned n | .arriving n => List.replicate 14 0 ++ enc2 n
            | .shelved | .out => List.replicate 16 0))
    ∧ (∀ (k : AlertKind) (r : AlertRec),
        let sources := if k.isCondition then r.present else []
        r.image k = [yes r.latched, byteOf r.count]
          ++ (match r.lastSource with
              | some n => enc2 n
              | none => [0, 0])
          ++ [yes r.masked, byteOf sources.length] ++ sources.flatMap enc2)
    ∧ [PartState.config, .supervised, .autonomous].map PartState.code = [0, 1, 2]
    ∧ [ClimateState.noData, .normal, .warning, .excursion, .critical].map ClimateState.code = [0, 1, 2, 3, 4]
    ∧ [FireState.quiet, .preAlarm, .alarm, .releaseCountdown, .released].map FireState.code = [0, 1, 2, 3, 4]
    ∧ [Cause.single, .coincidence, .heat, .callPoint].map Cause.code = [0, 1, 2, 3]
    ∧ [Stage.clear, .low, .high, .fault, .noReport, .silent].map Stage.code = [0, 1, 2, 3, 4, 5]
    ∧ [Position.closedLocked, .closedUnlocked, .opened, .fault, .noReport].map Position.code = [0, 1, 2, 3, 4]
    ∧ (∀ since due reported n m, [Custody.shelved, .checkedOut since due reported, .consigned n, .out, .arriving n,
        .acclimatizing m].map Custody.code = [0, 1, 2, 3, 4, 5])
    ∧ [Direction.outbound, .inbound].map Direction.code = [0, 1]
    ∧ [ConsignState.waiting, .awaitCase, .equalizing, .offered, .unlocking, .transfer, .closing, .aborting].map
        ConsignState.code = [0, 1, 2, 3, 4, 5, 6, 7]
    ∧ [ItemStatus.pending, .passed, .missing].map ItemStatus.code = [0, 1, 2]
    ∧ [AbortReason.fire, .timeout, .condensation, .cancelled, .hatchForced, .hatchFault].map AbortReason.code
        = [1, 2, 3, 4, 5, 6]
    ∧ [EndCause.allPassed, .done, .transferTimeout].map EndCause.code = [1, 2, 3]
    ∧ AlertKind.all = [.probeFault, .stationSilent, .zoneNoData, .climateWarning, .climateExcursion, .climateCritical,
        .zoneExposed, .detectorFault, .zoneUnmonitored, .firePreAlarm, .fireAlarm, .releaseCountdown, .released,
        .supervisionLost, .hatchForced, .hatchOpenTooLong, .handoverAborted, .mediaOverdue, .frameErrors, .congestion,
        .retryOverrun, .foreignManagement, .unknownReplySource]
    ∧ AlertKind.all.map AlertKind.code = List.range 23
    ∧ (∀ n, enc2 n = [byteOf (n / 256), byteOf n])
    ∧ (∀ i : Int, -32768 ≤ i → i < 32768 → encSigned2 i = enc2 (if i < 0 then i + 65536 else i).toNat)
    ∧ (∀ m : Minute, enc4 m = [m.extractLsb' 24 8, m.extractLsb' 16 8, m.extractLsb' 8 8, m.extractLsb' 0 8]))

/-- The table window: TABLE OPEN sets table and pointer; TABLE WRITE in CONFIG stores whole entries in order and advances
the pointer; TABLE READ returns stored entries and advances it. The checks of each in their order; a refusal changes
nothing. That a window that is not open is tested before the byte count of a write (log 35), the two bytes of the
pointer in the results, and the limit of 248 bytes of images (log 13), are the model's readings (DEDUCED). That the
REPLY of TABLE WRITE follows the ALERT notices of the stored entries is the model's choice (log 49), and that an entry
index has one byte its reading (log 50). -/
def Obligations.TableWindowOpensWritesReads : Prop :=  ∀ (s : State) (tag : Byte), s.ready →
    (∀ table start,
      let u := s.requested (.tableOpen tag table start)
      (7 < table → exec (.tableOpen tag table start) s = .next (u.reply 0x03 tag .malformed []))
      ∧ (∀ t, TableId.ofCode table = some t →
          (t.size ≤ start → exec (.tableOpen tag table start) s = .next (u.reply 0x03 tag .range []))
          ∧ (start < t.size → exec (.tableOpen tag table start) s
              = .next ((u.setMga { s.mga with window := some (t, start) }).reply 0x03 tag .done (enc1 table ++ enc2 start)))))
    ∧ (∀ count images,
      let c := Instr.tableWrite tag count images
      let u := s.requested c
      let at_ (t : TableId) (k : Nat) : List Byte := field images (k * t.imageSize) t.imageSize
      (count = 0 → exec c s = .next (u.reply 0x04 tag .malformed []))
      ∧ (count ≠ 0 → s.mga.window = none → exec c s = .next (u.replyRefused 0x04 tag .noWindow []))
      ∧ (∀ t p, count ≠ 0 → s.mga.window = some (t, p) →
          (images.length ≠ count * t.imageSize → exec c s = .next (u.reply 0x04 tag .malformed []))
          ∧ (images.length = count * t.imageSize → s.active = true →
              exec c s = .next (u.replyRefused 0x04 tag .notInConfig []))
          ∧ (images.length = count * t.imageSize → s.active = false → t.size < p + count →
              exec c s = .next (u.reply 0x04 tag .range []))
          ∧ (images.length = count * t.imageSize → s.active = false → p + count ≤ t.size →
              (∀ k, k < count → imageAccepted t (at_ t k) = false → (∀ j, j < k → imageAccepted t (at_ t j) = true) →
                exec c s = .next (u.replyRefused 0x04 tag .badEntry [byteOf (p + k)]))
              ∧ ((∀ k, k < count → imageAccepted t (at_ t k) = true) →
                exec c s = .next ((((List.range count).foldl (fun v k => v.storeEntry t (p + k) (at_ t k)) u).setMga
                  { s.mga with window := some (t, p + count) }).reply 0x04 tag .done (enc2 (p + count)))))))
    ∧ (∀ count,
      let c := Instr.tableRead tag count
      let u := s.requested c
      (count = 0 → exec c s = .next (u.reply 0x05 tag .malformed []))
      ∧ (count ≠ 0 → s.mga.window = none → exec c s = .next (u.replyRefused 0x05 tag .noWindow []))
      ∧ (∀ t p, count ≠ 0 → s.mga.window = some (t, p) →
          (248 < count * t.imageSize → exec c s = .next (u.reply 0x05 tag .malformed []))
          ∧ (count * t.imageSize ≤ 248 → t.size < p + count → exec c s = .next (u.reply 0x05 tag .range []))
          ∧ (count * t.imageSize ≤ 248 → p + count ≤ t.size →
              exec c s = .next ((u.setMga { s.mga with window := some (t, p + count) }).reply 0x05 tag .done
                (enc1 t.code ++ enc2 (p + count) ++ enc1 count
                  ++ (List.range count).flatMap (fun k => s.entryImage t (p + k)))))))

/-- What storing an entry does in each table: numeric fields clamped, codes as the image gives them; a station entry
restarts its runtime, lowers STATION_SILENT of a SILENT one, closes no window but takes it off the entry, and the
first one lets the arbiter choose; a zone entry is tested for EXPOSED. An image is accepted exactly when each of its
codes, zones and addresses is one its table allows; profile, probe and class images have none that can be refused. An
image that is not accepted stores nothing. A stored entry is read back in the same image, its numeric fields as they
were clamped. The mark on an open window is the model's choice (log 7). -/
def Obligations.StoredEntriesFollowTheirTables : Prop :=  let clamp (lo hi n : Nat) : Nat := min hi (max lo n)
  let temp (i : Int) : Int := min 850 (max (-400) i)
  (∀ (s : State) (i : Nat) (p : List Byte),
    (∀ e, StationEntry.ofImage p = some e →
      let a := if (s.stationRuntime i).silent then s.lower .stationSilent (s.station i).addr else s
      let b := a.setStationRuntime i ⟨0, false, none⟩
      let c := (match s.fsp.segment with
        | .awaiting j addr old => { b with fsp := { b.fsp with segment := .awaiting j addr (old || decide (j = i)) } }
        | _ => b)
      s.storeEntry .station i p = if s.stationList = [] ∧ e.addr ≠ 0 then (c.setStation i e).arbitrateIfIdle
        else c.setStation i e)
    ∧ s.storeEntry .profile i p = s.setProfile i
        ⟨clamp 0 1000 (nat2 p 0), clamp 0 1000 (nat2 p 2), clamp 0 1000 (nat2 p 4), clamp 0 1000 (nat2 p 6),
         clamp 0 100 (nat1 p 8), clamp 0 50 (nat1 p 9), temp (signed2 p 10), temp (signed2 p 12), clamp 0 50 (nat1 p 14),
         clamp 1 15 (nat1 p 15)⟩
    ∧ (∀ e, ZoneEntry.ofImage p = some e → s.storeEntry .zone i p = (s.setZone i e).testExposed i)
    ∧ s.storeEntry .probe i p
        = s.setProbeCal i ⟨min 63 (max (-64) (signed1 p 0)), min 31 (max (-32) (signed1 p 1))⟩
    ∧ (∀ k, InputKind.ofCode (nat1 p 0) = some k → s.storeEntry .fireInput i p = s.setInputKind i k)
    ∧ (∀ f, Function.ofCode (nat1 p 0) = some f → s.storeEntry .actuator i p = s.setActuator i f)
    ∧ (∀ e, HatchEntry.ofImage p = some e → s.storeEntry .hatch i p = s.setHatch i e)
    ∧ s.storeEntry .cls i p
        = s.setClassEntry i ⟨clamp 0 1023 (nat2 p 0), clamp 0 63 (nat1 p 2), clamp 0 63 (nat1 p 3), nat2 p 4⟩
    ∧ (∀ t, imageAccepted t p = false → s.storeEntry t i p = s))
  ∧ (∀ (s : State) (i : Nat),
    let zone (z : Option Nat) : Byte := match z with | some z => byteOf z | none => 0xFF
    let yes (x : Bool) : Byte := if x then 1 else 0
    (let e := s.station i
     s.entryImage .station i
       = [byteOf e.addr, byteOf e.kind.code, zone e.zone, byteOf e.role.code, byteOf e.index, byteOf e.policy.code])
    ∧ (let e := s.profile i
       s.entryImage .profile i = enc2 e.critLow ++ enc2 e.low ++ enc2 e.high ++ enc2 e.critHigh
         ++ [byteOf e.margin, byteOf e.hyst] ++ encSigned2 e.tLow ++ encSigned2 e.tHigh
         ++ [byteOf e.tHyst, byteOf e.persistence])
    ∧ (let e := s.zone i
       s.entryImage .zone i = [byteOf e.profile, byteOf e.takeLimit.code] ++ enc2 e.exposureLimit
         ++ [byteOf e.coincidence, yes e.fitted, yes e.autoRelease, byteOf e.releaseDelay, byteOf e.coupledCount,
             byteOf (e.coupled.getD 0 0), byteOf (e.coupled.getD 1 0), byteOf (e.coupled.getD 2 0),
             byteOf (e.coupled.getD 3 0)])
    ∧ s.entryImage .probe i = [BitVec.ofInt 8 (s.probeCal i).rh, BitVec.ofInt 8 (s.probeCal i).t]
    ∧ s.entryImage .fireInput i = [byteOf (s.inputKind i).code]
    ∧ s.entryImage .actuator i = [byteOf (s.actuator i).code]
    ∧ (let e := s.hatch i
       s.entryImage .hatch i = [byteOf e.unit, byteOf e.terminal, byteOf e.witness, byteOf e.inner, zone e.outer,
           byteOf e.mode.code] ++ enc2 e.acceptTimeout ++ enc2 e.openTimeout ++ enc2 e.transferTimeout
         ++ [yes e.transferRetrigger] ++ enc2 e.closeTimeout ++ enc2 e.equalizeTimeout ++ [byteOf e.dwell]
         ++ enc2 e.life ++ [byteOf e.margin])
    ∧ (let e := s.classEntry i
       s.entryImage .cls i = enc2 e.baseHold ++ [byteOf e.kT, byteOf e.kH] ++ enc2 e.loan))
  ∧ (∀ (s : State) (i : Nat) (p : List Byte),
    let back (t : TableId) : List Byte := (s.storeEntry t i p).entryImage t i
    let slots := [byteAt p 9, byteAt p 10, byteAt p 11, byteAt p 12]
    (imageAccepted .station p = true →
      let index := if nat1 p 1 = 0 ∨ nat1 p 1 = 5 then clamp 0 63 (nat1 p 4)
        else if nat1 p 1 = 1 then clamp 0 95 (nat1 p 4) else 0
      back .station = [byteAt p 0, byteAt p 1, byteAt p 2, byteAt p 3, byteOf index, byteAt p 5])
    ∧ back .profile = enc2 (clamp 0 1000 (nat2 p 0)) ++ enc2 (clamp 0 1000 (nat2 p 2)) ++ enc2 (clamp 0 1000 (nat2 p 4))
        ++ enc2 (clamp 0 1000 (nat2 p 6)) ++ [byteOf (clamp 0 100 (nat1 p 8)), byteOf (clamp 0 50 (nat1 p 9))]
        ++ encSigned2 (temp (signed2 p 10)) ++ encSigned2 (temp (signed2 p 12))
        ++ [byteOf (clamp 0 50 (nat1 p 14)), byteOf (clamp 1 15 (nat1 p 15))]
    ∧ (imageAccepted .zone p = true →
      back .zone = [byteOf (clamp 0 3 (nat1 p 0)), byteAt p 1, byteAt p 2, byteAt p 3, byteOf (clamp 0 4 (nat1 p 4)),
        byteAt p 5, byteAt p 6, byteOf (clamp 10 120 (nat1 p 7)), byteOf (clamp 0 4 (nat1 p 8))] ++ slots)
    ∧ back .probe = [BitVec.ofInt 8 (min 63 (max (-64) (signed1 p 0))), BitVec.ofInt 8 (min 31 (max (-32) (signed1 p 1)))]
    ∧ (imageAccepted .fireInput p = true → back .fireInput = [byteAt p 0])
    ∧ (imageAccepted .actuator p = true → back .actuator = [byteAt p 0])
    ∧ (imageAccepted .hatch p = true →
      back .hatch = [byteAt p 0, byteAt p 1, byteAt p 2, byteAt p 3, byteAt p 4, byteAt p 5]
        ++ enc2 (clamp 10 600 (nat2 p 6)) ++ enc2 (clamp 5 120 (nat2 p 8)) ++ enc2 (clamp 30 1800 (nat2 p 10))
        ++ [byteAt p 12] ++ enc2 (clamp 5 300 (nat2 p 13)) ++ enc2 (clamp 60 3600 (nat2 p 15))
        ++ [byteOf (clamp 1 30 (nat1 p 17))] ++ enc2 (clamp 0 10080 (nat2 p 18)) ++ [byteOf (clamp 0 100 (nat1 p 20))])
    ∧ back .cls = enc2 (clamp 0 1023 (nat2 p 0)) ++ [byteOf (clamp 0 63 (nat1 p 2)), byteOf (clamp 0 63 (nat1 p 3)),
        byteAt p 4, byteAt p 5])
  ∧ (∀ p : List Byte,
    (∀ e, StationEntry.ofImage p = some e ↔ nat1 p 0 ≤ 254 ∧ e.addr = nat1 p 0 ∧ e.kind.code = nat1 p 1
      ∧ (e.zone = none → nat1 p 2 = 255) ∧ (∀ z, e.zone = some z → nat1 p 2 = z ∧ z < 16) ∧ e.role.code = nat1 p 3
      ∧ e.policy.code = nat1 p 5
      ∧ e.index = (match e.kind with
          | .probe | .actuator => clamp 0 63 (nat1 p 4)
          | .fireInput => clamp 0 95 (nat1 p 4)
          | _ => 0))
    ∧ (∀ e, ZoneEntry.ofImage p = some e ↔ e.profile = clamp 0 3 (nat1 p 0) ∧ e.takeLimit.code = nat1 p 1
      ∧ e.exposureLimit = nat2 p 2 ∧ e.coincidence = clamp 0 4 (nat1 p 4) ∧ (if e.fitted then 1 else 0) = nat1 p 5
      ∧ (if e.autoRelease then 1 else 0) = nat1 p 6 ∧ e.releaseDelay = clamp 10 120 (nat1 p 7)
      ∧ e.coupledCount = clamp 0 4 (nat1 p 8) ∧ e.coupled = [nat1 p 9, nat1 p 10, nat1 p 11, nat1 p 12]
      ∧ ∀ z ∈ e.coupled, z < 16)
    ∧ (∀ e, HatchEntry.ofImage p = some e ↔ e.unit = nat1 p 0 ∧ e.unit ≤ 254 ∧ e.terminal = nat1 p 1 ∧ e.witness = nat1 p 2
      ∧ (e.unit ≠ 0 → 1 ≤ e.terminal ∧ e.terminal ≤ 254 ∧ 1 ≤ e.witness ∧ e.witness ≤ 254)
      ∧ e.inner = nat1 p 3 ∧ e.inner < 16 ∧ (e.outer = none → nat1 p 4 = 255)
      ∧ (∀ z, e.outer = some z → nat1 p 4 = z ∧ z < 16) ∧ e.mode.code = nat1 p 5
      ∧ e.acceptTimeout = clamp 10 600 (nat2 p 6) ∧ e.openTimeout = clamp 5 120 (nat2 p 8)
      ∧ e.transferTimeout = clamp 30 1800 (nat2 p 10) ∧ (if e.transferRetrigger then 1 else 0) = nat1 p 12
      ∧ e.closeTimeout = clamp 5 300 (nat2 p 13) ∧ e.equalizeTimeout = clamp 60 3600 (nat2 p 15)
      ∧ e.dwell = clamp 1 30 (nat1 p 17) ∧ e.life = clamp 0 10080 (nat2 p 18) ∧ e.margin = clamp 0 100 (nat1 p 20))
    ∧ (∀ k, InputKind.ofCode (nat1 p 0) = some k ↔ k.code = nat1 p 0)
    ∧ (∀ f, Function.ofCode (nat1 p 0) = some f ↔ f.code = nat1 p 0)
    ∧ (imageAccepted .station p = true ↔ ∃ e, StationEntry.ofImage p = some e)
    ∧ (imageAccepted .zone p = true ↔ ∃ e, ZoneEntry.ofImage p = some e)
    ∧ (imageAccepted .fireInput p = true ↔ ∃ k, InputKind.ofCode (nat1 p 0) = some k)
    ∧ (imageAccepted .actuator p = true ↔ ∃ f, Function.ofCode (nat1 p 0) = some f)
    ∧ (imageAccepted .hatch p = true ↔ ∃ e, HatchEntry.ofImage p = some e)
    ∧ imageAccepted .profile p = true ∧ imageAccepted .probe p = true ∧ imageAccepted .cls p = true
    ∧ (let zone (i : Nat) : Prop := nat1 p i < 16
       let zoneOrNone (i : Nat) : Prop := nat1 p i < 16 ∨ nat1 p i = 255
       let held (i : Nat) : Prop := nat1 p 0 = 0 ∨ (1 ≤ nat1 p i ∧ nat1 p i ≤ 254)
       (imageAccepted .station p = true ↔ nat1 p 0 ≤ 254 ∧ nat1 p 1 ≤ 6 ∧ zoneOrNone 2 ∧ nat1 p 3 ≤ 2 ∧ nat1 p 5 ≤ 2)
       ∧ (imageAccepted .zone p = true ↔ nat1 p 1 ≤ 1 ∧ nat1 p 5 ≤ 1 ∧ nat1 p 6 ≤ 1 ∧ zone 9 ∧ zone 10 ∧ zone 11 ∧ zone 12)
       ∧ (imageAccepted .fireInput p = true ↔ nat1 p 0 ≤ 4)
       ∧ (imageAccepted .actuator p = true ↔ nat1 p 0 ≤ 5)
       ∧ (imageAccepted .hatch p = true ↔ nat1 p 0 ≤ 254 ∧ held 1 ∧ held 2 ∧ zone 3 ∧ zoneOrNone 4 ∧ nat1 p 5 ≤ 2
          ∧ nat1 p 12 ≤ 1)))
  ∧ [StationKind.probe, .fireInput, .reader, .hatchUnit, .courierTerminal, .actuator, .other].map StationKind.code
      = [0, 1, 2, 3, 4, 5, 6]
  ∧ [Role.none, .door, .witness].map Role.code = [0, 1, 2] ∧ [Policy.all, .changes, .none].map Policy.code = [0, 1, 2]
  ∧ [Function.unassigned, .humidifier, .dehumidifier, .damper, .sounder, .suppression].map Function.code = [0, 1, 2, 3, 4, 5]
  ∧ [InputKind.smoke, .heat, .callPoint, .holdSwitch, .releaseSwitch].map InputKind.code = [0, 1, 2, 3, 4]
  ∧ [TakeLimit.warning, .excursion].map TakeLimit.code = [0, 1]
  ∧ [HatchMode.interlocked, .paced, .witnessed].map HatchMode.code = [0, 1, 2]

/-- ACTIVATE begins its check in CONFIG and is REFUSED, NOT_IN_CONFIG, elsewhere. The sum runs over the 1844 bytes of
the eight tables as stored, in their order. At its completion a sum that differs from the expected check is REFUSED,
TABLE_CHECK; a failed consistency test TABLE_CONSISTENCY; otherwise the part is ACTIVE_SUPERVISED, the supervision
timer starts, or is stopped at a live timeout of 0, and the owners prepare their runtime: stations, probes, zones,
inputs and hatches restart with their timers stopped, ZONE_NO_DATA is raised for each zone with a PROBE station,
ZONE_EXPOSED for each zone newly EXPOSED, ZONE_UNMONITORED for each zone with a station, and the conditions of what
restarts are lowered. Tables, media, consignments, queues, window, latches and masks are kept, and the REPLY, DONE, is
offered after the notices these raises offer. With no check in progress nothing completes. The consistency tests of
ACTIVATE find the first failure in the order of the tables: a station entry by R21, a profile by R52, a zone's coupled
list by R77, a hatch in use by R121, or a consignment whose hatch is not in use; none is found exactly when all hold.
The exact entry named is the first in index order. The result holds for both orders of the owners (log 8); the order
of the zones within an owner is the model's choice (log 40). That an entry index of a REPLY has one byte is the
model's reading (log 50). -/
def Obligations.ActivationChecksThenStarts : Prop :=
  ((∀ (s : State) (tag : Byte) (expected : Nat), s.ready →
    let u := s.requested (.activate tag expected)
    (s.active = true → exec (.activate tag expected) s = .next (u.replyRefused 0x06 tag .notInConfig []))
    ∧ (s.active = false →
        exec (.activate tag expected) s = .next { u with mga := { s.mga with check := some ⟨tag, expected⟩ } }))
  ∧ (activationSum [] = 0
    ∧ ∀ (bytes : List Byte) (x : Byte),
      let a := (activationSum bytes % 256 + x.toNat) % 255
      activationSum (bytes ++ [x]) = (activationSum bytes / 256 + a) % 255 * 256 + a)
  ∧ (∀ s : State,
    let table (t : TableId) (n : Nat) : List Byte := (List.range n).flatMap (fun i => s.entryImage t i)
    s.tableBytes = table .station 192 ++ table .profile 4 ++ table .zone 16 ++ table .probe 64 ++ table .fireInput 96
      ++ table .actuator 64 ++ table .hatch 4 ++ table .cls 8
    ∧ s.tableBytes.length = 1844)
  ∧ (∀ (s : State) (order : OwnerOrder),
    (s.mga.check = none → exec (.activateCheckComplete order) s = .next s)
    ∧ (∀ run, s.mga.check = some run →
      let u := { s with mga := { s.mga with check := none } }
      let sum := activationSum s.tableBytes
      (sum ≠ run.expected →
        exec (.activateCheckComplete order) s = .next (u.replyRefused 0x06 run.tag .tableCheck (enc2 sum)))
      ∧ (∀ t i, sum = run.expected → s.inconsistency = some (t, i) →
        exec (.activateCheckComplete order) s
          = .next (u.replyRefused 0x06 run.tag .tableConsistency [byteOf t.code, byteOf i]))
      ∧ (sum = run.expected → s.inconsistency = none →
        let a : State := { s with mga := { s.mga with check := none, partState := .supervised } }
        let b := a.setSupervision (if s.mga.live.supervisionTimeout = 0 then s.tmb.supervision.stop
          else s.tmb.supervision.start s.mga.live.supervisionTimeout false true)
        let v := b.activateOwners order
        let present (x : State) (k : AlertKind) : List Nat := (x.alertRec k.code).present
        exec (.activateCheckComplete order) s = .next (v.reply 0x06 run.tag .done ([1] ++ enc2 sum))
        ∧ v.mga = { s.mga with check := none, partState := .supervised }
        ∧ v.tmb.supervision = b.tmb.supervision ∧ v.tmb.retry = s.tmb.retry
        ∧ v.tmb.minuteClock = s.tmb.minuteClock ∧ v.tmb.secondCount = s.tmb.secondCount
        ∧ v.cgt.stations = s.cgt.stations ∧ v.cgt.actuators = s.cgt.actuators ∧ (∀ i, v.stationRuntime i = ⟨0, false, none⟩)
        ∧ v.cls.probes = s.cls.probes ∧ v.cls.profiles = s.cls.profiles ∧ v.cls.zones = s.cls.zones
        ∧ (∀ i, v.probeState i = .noSample)
        ∧ (∀ z, z < 16 →
            let due := (s.zone z).exposureLimit ≠ 0 ∧ (s.zone z).exposureLimit ≤ (s.climate z).exposure
            (∃ exposed, v.climate z = ⟨.noData, none, 0, 0, (s.climate z).exposure, exposed, false, false⟩
              ∧ (exposed = true ↔ (s.climate z).exposed = true ∨ due))
            ∧ v.fire z = ⟨.quiet, none, [], false, true⟩ ∧ v.releaseTimer z = (s.releaseTimer z).stop
            ∧ (z ∈ present v .zoneNoData ↔ z ∈ present s .zoneNoData ∨ s.probesOf z ≠ [])
            ∧ (z ∈ present v .zoneExposed ↔ z ∈ present s .zoneExposed ∨ ((s.climate z).exposed = false ∧ due))
            ∧ (z ∈ present v .zoneUnmonitored
                ↔ z ∈ present s .zoneUnmonitored ∨ ∃ p ∈ s.stationList, p.2.zone = some z))
        ∧ present v .probeFault = [] ∧ present v .detectorFault = []
        ∧ (Tab.wf .fresh s.cgt.runtime = true → ∀ addr, addr ∈ present v .stationSilent
            ↔ addr ∈ present s .stationSilent ∧ ∀ i, (s.stationRuntime i).silent = true → (s.station i).addr ≠ addr)
        ∧ (∀ k, (v.alertRec k).masked = (s.alertRec k).masked ∧ ((s.alertRec k).latched = true → (v.alertRec k).latched = true))
        ∧ v.frs.inputs = s.frs.inputs ∧ (∀ i, v.inputStage i = .noReport)
        ∧ (∀ h, v.hatchRuntime h = ⟨.noReport, false, false, false, false, none, false⟩)
        ∧ (∀ h, h < 4 → v.stepTimer h = (s.stepTimer h).stop ∧ v.dwellTimer h = (s.dwellTimer h).stop)
        ∧ v.hoc.hatches = s.hoc.hatches ∧ v.hoc.consignments = s.hoc.consignments ∧ v.csu = s.csu ∧ v.fsp = s.fsp
        ∧ v.slp.rx = s.slp.rx
        ∧ (∃ offered, v.siteOutput = s.siteOutput ++ offered ∧ ∀ x ∈ offered, x.tag = .notice ∧ x.frame.payload.head? = some 0)
        ∧ v.handed = s.handed ++ (List.range 16).map (fun z => Instr.zoneReport z (.unmonitoredChanged true))
        ∧ v.pending = s.pending)))
  ∧ (∀ s : State,
    let zones := List.range 16
    s.activateOwners .climateFirst = s.restartStations.activateClimate.activateFire.restartHatches
    ∧ s.activateOwners .climateLast = s.restartStations.activateFire.activateClimate.restartHatches
    ∧ s.activateClimate = zones.foldl State.testExposed
        (zones.foldl (fun u z => if u.probesOf z = [] then u else u.raiseCondition .zoneNoData z) s.restartClimate)
    ∧ s.activateFire = zones.foldl State.recomputeUnmonitored s.restartFire))
  ∧ (∀ s : State,
    let stationOk (e : StationEntry) (lower : List (Nat × StationEntry)) : Prop :=
      e.addr ≠ s.mga.live.ownAddress ∧ e.addr ≠ s.mga.live.siteAddress ∧ (∀ q ∈ lower, q.2.addr ≠ e.addr)
      ∧ (e.kind = .probe ∨ e.kind = .fireInput ∨ e.kind = .actuator →
          e.zone ≠ none ∧ ∀ q ∈ lower, ¬ (q.2.kind = e.kind ∧ q.2.index = e.index))
      ∧ (e.kind = .actuator → s.actuator e.index ≠ .unassigned)
      ∧ (e.kind = .reader → (e.role = .door ∧ e.zone ≠ none) ∨ e.role = .witness)
    let profileOk (i : Nat) : Prop :=
      let p := s.profile i
      p.critLow < p.low ∧ p.low < p.high ∧ p.high < p.critHigh ∧ 2 * p.margin ≤ p.high - p.low ∧ p.tLow < p.tHigh
    let zoneOk (z : Nat) : Prop :=
      let l := (s.zone z).coupled.take (s.zone z).coupledCount
      z ∉ l ∧ l.Nodup
    let addrs (e : HatchEntry) : List Nat := [e.unit, e.terminal, e.witness]
    let hatchOk (e : HatchEntry) (lower : List (Nat × HatchEntry)) : Prop :=
      (∃ p ∈ s.stationList, p.2.addr = e.unit ∧ p.2.kind = .hatchUnit)
      ∧ (∃ p ∈ s.stationList, p.2.addr = e.terminal ∧ p.2.kind = .courierTerminal)
      ∧ (∃ p ∈ s.stationList, p.2.addr = e.witness ∧ p.2.kind = .reader ∧ p.2.role = .witness)
      ∧ (∀ q ∈ lower, (∀ a ∈ addrs e, a ∉ addrs q.2) ∧ q.2.inner ≠ e.inner) ∧ e.outer ≠ some e.inner
    let stationsOk := ∀ lower i e rest, s.stationList = lower ++ (i, e) :: rest → stationOk e lower
    let hatchesOk := ∀ lower h e rest, s.hatchesInUse = lower ++ (h, e) :: rest → hatchOk e lower
    (∀ lower i e rest, s.stationList = lower ++ (i, e) :: rest → ¬ stationOk e lower →
      (∀ lower' j f rest', s.stationList = lower' ++ (j, f) :: rest' → lower'.length < lower.length → stationOk f lower') →
      s.inconsistency = some (.station, i))
    ∧ (stationsOk → ∀ i, i < 4 → ¬ profileOk i → (∀ j, j < i → profileOk j) → s.inconsistency = some (.profile, i))
    ∧ (stationsOk → (∀ i, i < 4 → profileOk i) →
        (∀ z, z < 16 → ¬ zoneOk z → (∀ y, y < z → zoneOk y) → s.inconsistency = some (.zone, z))
        ∧ ((∀ z, z < 16 → zoneOk z) →
          (∀ lower h e rest, s.hatchesInUse = lower ++ (h, e) :: rest → ¬ hatchOk e lower →
            (∀ lower' j f rest', s.hatchesInUse = lower' ++ (j, f) :: rest' → lower'.length < lower.length → hatchOk f lower') →
            s.inconsistency = some (.hatch, h))
          ∧ (hatchesOk → ∀ c front back, s.hoc.consignments = front ++ c :: back → (s.hatch c.hatch).unit = 0 →
              (∀ x ∈ front, (s.hatch x.hatch).unit ≠ 0) → s.inconsistency = some (.hatch, c.hatch))
          ∧ (hatchesOk → (∀ c ∈ s.hoc.consignments, (s.hatch c.hatch).unit ≠ 0) → s.inconsistency = none))))

/-- DEACTIVATE: the checks in their order; an accepted one makes the part CONFIG, stops the supervision timer and clears the
runtime of stations, probes, zones, inputs and hatches with their timers, lowering their conditions and that of SILENT stations
and keeping exposure, media, consignments, tables, window, store and the clock.
RESTART queues its REPLY and marks the restart pending, the part being reset when that REPLY has been sent, or at once if it
is dropped. -/
def Obligations.DeactivateAndRestart : Prop :=  (∀ (s : State) (tag : Byte), s.ready →
    let u := s.requested (.deactivate tag)
    let beyond (h : Nat) : Prop := ∃ c ∈ s.hoc.consignments, c.hatch = h ∧ c.state ≠ .waiting
    let fiery (z : Nat) : Prop := s.fireState z ≠ .quiet ∨ (s.fire z).coupledSources ≠ []
    (s.mga.partState = .config → exec (.deactivate tag) s = .next (u.replyRefused 0x07 tag .notActive []))
    ∧ (s.mga.partState = .autonomous → exec (.deactivate tag) s = .next (u.replyRefused 0x07 tag .autonomous []))
    ∧ (∀ h, s.mga.partState = .supervised → h < 4 → beyond h → (∀ j, j < h → ¬ beyond j) →
        exec (.deactivate tag) s = .next (u.replyRefused 0x07 tag .handoverActive [byteOf h]))
    ∧ (∀ z, s.mga.partState = .supervised → (∀ h, h < 4 → ¬ beyond h) → z < 16 → fiery z → (∀ y, y < z → ¬ fiery y) →
        exec (.deactivate tag) s = .next (u.replyRefused 0x07 tag .fireActive [byteOf z]))
    ∧ (s.mga.partState = .supervised → (∀ h, h < 4 → ¬ beyond h) → (∀ z, z < 16 → ¬ fiery z) →
        ∃ v : State, exec (.deactivate tag) s = .next (v.reply 0x07 tag .done [0])
          ∧ v.mga = { s.mga with partState := .config } ∧ v.tmb.supervision = u.tmb.supervision.stop
          ∧ v.tmb.retry = s.tmb.retry ∧ v.tmb.pulse = s.tmb.pulse
          ∧ v.tmb.minuteClock = s.tmb.minuteClock ∧ v.tmb.secondCount = s.tmb.secondCount
          ∧ (∀ h, h < 4 → v.stepTimer h = (s.stepTimer h).stop ∧ v.dwellTimer h = (s.dwellTimer h).stop)
          ∧ (∀ z, z < 16 → v.releaseTimer z = (s.releaseTimer z).stop)
          ∧ v.cgt.stations = s.cgt.stations ∧ v.cgt.actuators = s.cgt.actuators ∧ (∀ i, v.stationRuntime i = ⟨0, false, none⟩)
          ∧ v.cls.probes = s.cls.probes ∧ v.cls.profiles = s.cls.profiles ∧ v.cls.zones = s.cls.zones
          ∧ (∀ i, v.probeState i = .noSample)
          ∧ (∀ z, z < 16 → v.climate z
              = ⟨.noData, none, 0, 0, (s.climate z).exposure, (s.climate z).exposed, false, false⟩)
          ∧ v.frs.inputs = s.frs.inputs ∧ (∀ i, v.inputStage i = .noReport)
          ∧ (∀ z, z < 16 → v.fire z = ⟨.quiet, none, [], false, false⟩)
          ∧ (∀ h, v.hatchRuntime h = ⟨.noReport, false, false, false, false, none, false⟩)
          ∧ v.hoc.hatches = s.hoc.hatches ∧ v.hoc.consignments = s.hoc.consignments ∧ v.csu = s.csu ∧ v.fsp = s.fsp
          ∧ v.slp = s.slp
          ∧ (∀ k : AlertKind, k ∈ [AlertKind.probeFault, .detectorFault, .zoneUnmonitored, .zoneNoData, .climateWarning,
              .climateExcursion, .climateCritical] → (v.alertRec k.code).present = [])
          ∧ (let present (x : State) : List Nat := (x.alertRec AlertKind.stationSilent.code).present
             Tab.wf .fresh s.cgt.runtime = true → ∀ addr, addr ∈ present v
              ↔ addr ∈ present s ∧ ∀ i, (s.stationRuntime i).silent = true → (s.station i).addr ≠ addr)
          ∧ v.handed = s.handed.erase (.deactivate tag) ++ ((List.range 16).filter (fun z => (s.fire z).unmonitored)).map
              (fun z => Instr.zoneReport z (.unmonitoredChanged false))
          ∧ (∀ k, (v.alertRec k).latched = (s.alertRec k).latched ∧ (v.alertRec k).count = (s.alertRec k).count
              ∧ (v.alertRec k).masked = (s.alertRec k).masked)))
  ∧ (∀ (s : State) (tag : Byte), s.ready →
    let u := s.requested (.restart tag)
    let item : SiteItem :=
      ⟨⟨s.mga.live.siteAddress, s.mga.live.ownAddress, 0x31, [0x08, tag, 0, 0]⟩, .restartReply⟩
    (s.slp.queue.length < 48 →
      exec (.restart tag) s = .next (State.offerSite { u with mga := { s.mga with restartPending := true } } item))
    ∧ (48 ≤ s.slp.queue.length → exec (.restart tag) s = exec .reset s))
  ∧ (∀ (s : State) f, s.slp.tx = some f → f.tag = .restartReply → exec .siteTransmitComplete s = exec .reset s)

/-- The commissioning store. STORE BURN: the checks in their order; an accepted one counts the burn at once and holds
item, value and tag, answering nothing yet. Its completion stores the value and answers. SET LIVE answers first, then
changes the live value, that of SUPERVISION_TIMEOUT starting or stopping the timer in ACTIVE_SUPERVISED; the store is
not touched. No command ever lowers the burn count of a commissioning item, a reset included, and from at most four
burns there are never more. That an entry index of a REPLY has one byte is the model's reading (log 50). -/
def Obligations.CommissioningStoreAndItsBurns : Prop :=
  ((∀ v, StoreItem.taken .ownAddress v = (if 1 ≤ v ∧ v ≤ 254 then some v else none)
    ∧ StoreItem.taken .siteAddress v = (if 1 ≤ v ∧ v ≤ 254 then some v else none)
    ∧ StoreItem.taken .supervisionTimeout v = some (if v = 0 then 0 else min 250 (max 5 v))
    ∧ StoreItem.taken .retryInterval v = some (min 250 (max 10 v)) ∧ StoreItem.taken .vaultId v = some v)
  ∧ (∀ (s : State) (tag : Byte) (item value : Nat), s.ready →
    let c := Instr.storeBurn tag item value
    let u := s.requested c
    (4 < item → exec c s = .next (u.reply 0x50 tag .malformed []))
    ∧ (∀ i, StoreItem.ofCode item = some i →
      (i.taken value = none → exec c s = .next (u.reply 0x50 tag .range []))
      ∧ (∀ v, i.taken value = some v →
        let clash := (i = .ownAddress ∧ v = s.mga.stored.siteAddress) ∨ (i = .siteAddress ∧ v = s.mga.stored.ownAddress)
        (s.mga.burn ≠ none → exec c s = .next (u.reply 0x50 tag .busy []))
        ∧ (s.mga.burn = none → 4 ≤ s.mga.burns.get i → exec c s = .next (u.reply 0x50 tag .exhausted []))
        ∧ (s.mga.burn = none → s.mga.burns.get i < 4 → clash →
            exec c s = .next (u.replyRefused 0x50 tag .addressClash []))
        ∧ (s.mga.burn = none → s.mga.burns.get i < 4 → ¬ clash →
            exec c s = .next { u with mga := { s.mga with
              burns := s.mga.burns.set i (s.mga.burns.get i + 1), burn := some ⟨i, v, tag⟩ } }))))
  ∧ (∀ s : State,
    (s.mga.burn = none → exec .storeBurnComplete s = .next s)
    ∧ (∀ b, s.mga.burn = some b → exec .storeBurnComplete s
        = .next (State.reply { s with mga := { s.mga with stored := s.mga.stored.set b.item b.value, burn := none } } 0x50 b.tag
            .done (enc1 b.item.code ++ enc2 b.value ++ enc1 (s.mga.burns.get b.item)))))
  ∧ (∀ (s : State) (tag : Byte) (item value : Nat), s.ready →
    let c := Instr.setLive tag item value
    let u := s.requested c
    (4 < item → exec c s = .next (u.reply 0x51 tag .malformed []))
    ∧ (∀ i, StoreItem.ofCode item = some i →
      (i.taken value = none → exec c s = .next (u.reply 0x51 tag .range []))
      ∧ (∀ v, i.taken value = some v →
        let address := i = .ownAddress ∨ i = .siteAddress
        let clash := (i = .ownAddress ∧ v = s.mga.live.siteAddress) ∨ (i = .siteAddress ∧ v = s.mga.live.ownAddress)
        let held := s.active = true ∧ address ∧ ∃ p ∈ s.stationList, p.2.addr = v
        let w := u.reply 0x51 tag .done (enc1 item ++ enc2 v)
        let x := { w with mga := { s.mga with live := s.mga.live.set i v } }
        (clash → exec c s = .next (u.replyRefused 0x51 tag .addressClash []))
        ∧ (∀ front k e back, ¬ clash → s.active = true → address → s.stationList = front ++ (k, e) :: back →
            (∀ q ∈ front, q.2.addr ≠ v) → e.addr = v →
            exec c s = .next (u.replyRefused 0x51 tag .addressClash [byteOf k]))
        ∧ (¬ clash → ¬ held → i ≠ .supervisionTimeout ∨ s.mga.partState ≠ .supervised → exec c s = .next x)
        ∧ (¬ clash → ¬ held → i = .supervisionTimeout → s.mga.partState = .supervised →
            exec c s = .next (x.setSupervision
              (if v = 0 then u.tmb.supervision.stop else u.tmb.supervision.start v false true))))))
  ∧ (∀ (f : Figures) (i j : StoreItem) (v : Nat), (f.set i v).get j = if j = i then v else f.get j))
  ∧ (∀ (c : Instr) (s t : State) (i : StoreItem), exec c s = .next t →
    s.mga.burns.get i ≤ t.mga.burns.get i ∧ (s.mga.burns.get i ≤ 4 → t.mga.burns.get i ≤ 4))

/-! ### Invariants -/

/-- The state after reset satisfies the bounds and agreements of `Sound`, and its tables are canonical. -/
def Obligations.ResetStateIsSoundAndCanonical : Prop := State.reset.Sound ∧ State.reset.Canonical

/-- Every step keeps the bounds and agreements the spec gives the state: the queues within 48 and 32 frames, one urgent frame
for each destination, the transmitter idle only with an empty queue, missed counts of 0..3 with SILENT at 3, the second count
of 0..59, exposures of 16 bits, 8 consignments, alert counts of 0..255, the held mark agreeing with the conditions present,
and four burns for each item. -/
def Obligations.EveryStepKeepsSoundness : Prop := ∀ s t : State, s.Sound → step s = .next t → t.Sound

/-- Every step keeps every table in its canonical form, so that equal tables are equal data. -/
def Obligations.EveryStepKeepsTablesCanonical : Prop := ∀ s t : State, s.Canonical → step s = .next t → t.Canonical

/-- The part queues an urgent RELEASE frame only at the expiry of the release timer of a zone in RELEASE_COUNTDOWN: with none
being sent as an urgent frame or waiting in the urgent queue, no other command brings one there. Ordinary frames, such as a
RELEASE of the site station that is forwarded in CONFIG, are not spoken of. -/
def Obligations.UrgentReleaseFramesComeFromTheCountdown : Prop :=  ∀ (c : Instr) (s t : State), s.noRelease → exec c s = .next t →
    (∀ z, c = .releaseTimerExpiry z → c ∈ s.handed → s.fireState z ≠ .releaseCountdown) → t.noRelease

end
end

