-- ==== Sys2Proof/Laws/Tables.lean ====
section
/-! SUPPORT. Laws of the sparse tables, the rising sets and the interval timers of Machine/Ops.lean. -/
namespace Sys2Proof.Machine

/-! ### Reading after an update -/

theorem Tab.read_erase_same {α : Type} (d : α) (t : Tab α) (k : Nat) : Tab.read d (Tab.erase t k) k = d := by
  induction t with
  | nil => rfl
  | cons p t ih =>
    obtain ⟨j, v⟩ := p
    by_cases hj : j = k
    · simp [Tab.erase, hj, ih]
    · simp [Tab.erase, Tab.read, hj, ih]

theorem Tab.read_erase_other {α : Type} (d : α) (t : Tab α) {k i : Nat} (h : i ≠ k) :
    Tab.read d (Tab.erase t k) i = Tab.read d t i := by
  induction t with
  | nil => rfl
  | cons p t ih =>
    obtain ⟨j, v⟩ := p
    by_cases hj : j = k
    · subst hj; simp [Tab.erase, Tab.read, ih, Ne.symm h]
    · simp [Tab.erase, Tab.read, hj, ih]

theorem Tab.read_insert_same {α : Type} (d : α) (t : Tab α) (k : Nat) (v : α) :
    Tab.read d (Tab.insert (Tab.erase t k) k v) k = v := by
  induction t with
  | nil => simp [Tab.erase, Tab.insert, Tab.read]
  | cons p t ih =>
    obtain ⟨j, w⟩ := p
    by_cases hj : j = k
    · simp [Tab.erase, hj, ih]
    · by_cases hlt : k < j
      · simp [Tab.erase, Tab.insert, Tab.read, hj, hlt]
      · simp [Tab.erase, Tab.insert, Tab.read, hj, hlt, ih]

theorem Tab.read_insert_other {α : Type} (d : α) (t : Tab α) {k i : Nat} (v : α) (h : i ≠ k) :
    Tab.read d (Tab.insert t k v) i = Tab.read d t i := by
  induction t with
  | nil => simp [Tab.insert, Tab.read, Ne.symm h]
  | cons p t ih =>
    obtain ⟨j, w⟩ := p
    by_cases hlt : k < j
    · simp [Tab.insert, Tab.read, hlt, Ne.symm h]
    · simp [Tab.insert, Tab.read, hlt, ih]

/-- What a table reads as after a write. -/
@[simp] theorem Tab.read_write {α : Type} [DecidableEq α] (d : α) (t : Tab α) (k : Nat) (v : α) (i : Nat) :
    Tab.read d (Tab.write d t k v) i = if i = k then v else Tab.read d t i := by
  unfold Tab.write
  by_cases hi : i = k
  · subst hi
    split
    · rename_i hv; simp [Tab.read_erase_same, hv]
    · simp [Tab.read_insert_same]
  · split
    · simp [Tab.read_erase_other _ _ hi]
    · simp [Tab.read_insert_other _ _ _ hi, Tab.read_erase_other _ _ hi]

@[simp] theorem Tab.read_nil {α : Type} (d : α) (i : Nat) : Tab.read d ([] : Tab α) i = d := rfl

/-! ### The canonical form -/

theorem Tab.wfFrom_weaken {α : Type} [DecidableEq α] (d : α) {lo lo' : Nat} (h : lo' ≤ lo) {t : Tab α}
    (ht : Tab.wfFrom d lo t = true) : Tab.wfFrom d lo' t = true := by
  cases t with
  | nil => rfl
  | cons p t =>
    obtain ⟨j, v⟩ := p
    simp only [Tab.wfFrom, Bool.and_eq_true, decide_eq_true_eq] at ht ⊢
    exact ⟨⟨by omega, ht.1.2⟩, ht.2⟩

theorem Tab.wfFrom_erase {α : Type} [DecidableEq α] (d : α) (k : Nat) (t : Tab α) :
    ∀ lo, Tab.wfFrom d lo t = true → Tab.wfFrom d lo (Tab.erase t k) = true := by
  induction t with
  | nil => intro _ h; exact h
  | cons p t ih =>
    obtain ⟨j, v⟩ := p
    intro lo h
    simp only [Tab.wfFrom, Bool.and_eq_true, decide_eq_true_eq] at h
    by_cases hj : j = k
    · simp only [Tab.erase, hj, if_true]
      exact Tab.wfFrom_weaken d (by omega) (ih _ h.2)
    · simp only [Tab.erase, hj, if_false, Tab.wfFrom, Bool.and_eq_true, decide_eq_true_eq]
      exact ⟨h.1, ih _ h.2⟩

theorem Tab.wfFrom_insert {α : Type} [DecidableEq α] (d : α) (k : Nat) (v : α) (hv : v ≠ d) (t : Tab α) :
    ∀ lo, lo ≤ k → Tab.wfFrom d lo (Tab.erase t k) = true →
      Tab.wfFrom d lo (Tab.insert (Tab.erase t k) k v) = true := by
  induction t with
  | nil => intro lo h _; simp [Tab.erase, Tab.insert, Tab.wfFrom, h, hv]
  | cons p t ih =>
    obtain ⟨j, w⟩ := p
    intro lo hlo h
    by_cases hj : j = k
    · simp only [Tab.erase, hj, if_true] at h ⊢; exact ih lo hlo h
    · simp only [Tab.erase, hj, if_false, Tab.wfFrom, Bool.and_eq_true, decide_eq_true_eq] at h ⊢
      by_cases hlt : k < j
      · simp only [Tab.insert, hlt, if_true, Tab.wfFrom, Bool.and_eq_true, decide_eq_true_eq]
        exact ⟨⟨hlo, hv⟩, ⟨⟨by omega, h.1.2⟩, h.2⟩⟩
      · simp only [Tab.insert, hlt, if_false, Tab.wfFrom, Bool.and_eq_true, decide_eq_true_eq]
        exact ⟨h.1, ih (j + 1) (by omega) h.2⟩

/-- A write keeps the canonical form. -/
theorem Tab.wf_write {α : Type} [DecidableEq α] (d : α) (t : Tab α) (k : Nat) (v : α) (h : Tab.wf d t = true) :
    Tab.wf d (Tab.write d t k v) = true := by
  unfold Tab.write Tab.wf
  split
  · exact Tab.wfFrom_erase d k t 0 h
  · rename_i hv
    exact Tab.wfFrom_insert d k v hv t 0 (Nat.zero_le k) (Tab.wfFrom_erase d k t 0 h)

/-! ### Rising sets -/

@[simp] theorem mem_insertSorted (t : List Nat) (k j : Nat) : j ∈ insertSorted t k ↔ j = k ∨ j ∈ t := by
  induction t with
  | nil => simp [insertSorted]
  | cons a t ih =>
    simp only [insertSorted]
    split
    · simp
    · split
      · rename_i h; simp [h]
      · simp [ih]; constructor <;> (rintro (h | h | h) <;> simp [h])

@[simp] theorem mem_eraseNat (t : List Nat) (k j : Nat) : j ∈ eraseNat t k ↔ j ∈ t ∧ j ≠ k := by simp [eraseNat]

theorem insertSorted_ne_nil (t : List Nat) (k : Nat) : insertSorted t k ≠ [] := by
  intro h
  have : k ∈ insertSorted t k := by simp
  rw [h] at this
  exact (List.not_mem_nil this)

/-! ### Interval timers (R38 to R42) -/

@[simp] theorem Timer.start_remaining (t : Timer) (l : Nat) (c r : Bool) : (t.start l c r).remaining = l := rfl
@[simp] theorem Timer.start_running (t : Timer) (l : Nat) (c r : Bool) : (t.start l c r).running = true := rfl
@[simp] theorem Timer.start_gated (t : Timer) (l : Nat) (c r : Bool) : (t.start l c r).gated = t.gated := rfl
@[simp] theorem Timer.start_load (t : Timer) (l : Nat) (c r : Bool) : (t.start l c r).load = l := rfl
@[simp] theorem Timer.start_pending (t : Timer) (l : Nat) (c r : Bool) : (t.start l c r).pending = false := rfl
@[simp] theorem Timer.stop_running (t : Timer) : t.stop.running = false := rfl
@[simp] theorem Timer.stop_pending (t : Timer) : t.stop.pending = false := rfl
@[simp] theorem Timer.acknowledge_pending (t : Timer) : t.acknowledge.pending = false := rfl
@[simp] theorem Timer.acknowledge_running (t : Timer) : t.acknowledge.running = t.running := rfl

/-- A gated timer does not advance (R40). -/
theorem Timer.advance_gated (t : Timer) (h : t.gated = true) : t.advance = t := by
  simp [Timer.advance, Timer.expires, h]

/-- A timer that is not running does not advance. -/
theorem Timer.advance_stopped (t : Timer) (h : t.running = false) : t.advance = t := by
  simp [Timer.advance, Timer.expires, h]

/-- An ungated running timer with more than one tick to run counts one down (R41). -/
theorem Timer.advance_counts (t : Timer) (hr : t.running = true) (hg : t.gated = false) (h : 1 < t.remaining) :
    t.advance = { t with remaining := t.remaining - 1 } := by
  have : ¬ t.remaining ≤ 1 := by omega
  simp [Timer.advance, Timer.expires, hr, hg, this]

/-- A single-cycle timer that expires stops at 0 with its expiry pending (R41). -/
theorem Timer.advance_expires (t : Timer) (h : t.expires = true) (hc : t.continuous = false) :
    t.advance = { t with pending := true, running := false, remaining := 0 } := by
  simp [Timer.advance, h, hc]

end Sys2Proof.Machine
end

