-- ==== Sys2Proof/Laws/State.lean ====
section
/-!
SUPPORT. What each update of Machine/Ops.lean leaves as it was and what it changes, one theorem per update, by rfl; and what a
table entry reads as after its update.
-/
namespace Sys2Proof.Machine
namespace State

variable (s : State)

@[simp] theorem setStation_fields (i : Nat) (e : StationEntry) :
    (s.setStation i e).slp = s.slp ∧ (s.setStation i e).fsp = s.fsp ∧ (s.setStation i e).tmb = s.tmb ∧ (s.setStation
    i e).cls = s.cls ∧ (s.setStation i e).frs = s.frs ∧ (s.setStation i e).csu = s.csu ∧ (s.setStation i e).hoc =
    s.hoc ∧ (s.setStation i e).alb = s.alb ∧ (s.setStation i e).mga = s.mga ∧ (s.setStation i e).handed = s.handed ∧
    (s.setStation i e).pending = s.pending ∧ (s.setStation i e).cgt.actuators = s.cgt.actuators ∧ (s.setStation i
    e).cgt.runtime = s.cgt.runtime :=
  ⟨rfl, rfl, rfl, rfl, rfl, rfl, rfl, rfl, rfl, rfl, rfl, rfl, rfl⟩

@[simp] theorem station_setStation (i : Nat) (e : StationEntry) (j : Nat) : (s.setStation i e).station j = if j = i then e else s.station j :=
  Tab.read_write _ _ _ _ _

@[simp] theorem setActuator_fields (i : Nat) (e : Function) :
    (s.setActuator i e).slp = s.slp ∧ (s.setActuator i e).fsp = s.fsp ∧ (s.setActuator i e).tmb = s.tmb ∧
    (s.setActuator i e).cls = s.cls ∧ (s.setActuator i e).frs = s.frs ∧ (s.setActuator i e).csu = s.csu ∧
    (s.setActuator i e).hoc = s.hoc ∧ (s.setActuator i e).alb = s.alb ∧ (s.setActuator i e).mga = s.mga ∧
    (s.setActuator i e).handed = s.handed ∧ (s.setActuator i e).pending = s.pending ∧ (s.setActuator i
    e).cgt.stations = s.cgt.stations ∧ (s.setActuator i e).cgt.runtime = s.cgt.runtime :=
  ⟨rfl, rfl, rfl, rfl, rfl, rfl, rfl, rfl, rfl, rfl, rfl, rfl, rfl⟩

@[simp] theorem actuator_setActuator (i : Nat) (e : Function) (j : Nat) : (s.setActuator i e).actuator j = if j = i then e else s.actuator j :=
  Tab.read_write _ _ _ _ _

@[simp] theorem setStationRuntime_fields (i : Nat) (e : StationRuntime) :
    (s.setStationRuntime i e).slp = s.slp ∧ (s.setStationRuntime i e).fsp = s.fsp ∧ (s.setStationRuntime i e).tmb =
    s.tmb ∧ (s.setStationRuntime i e).cls = s.cls ∧ (s.setStationRuntime i e).frs = s.frs ∧ (s.setStationRuntime i
    e).csu = s.csu ∧ (s.setStationRuntime i e).hoc = s.hoc ∧ (s.setStationRuntime i e).alb = s.alb ∧
    (s.setStationRuntime i e).mga = s.mga ∧ (s.setStationRuntime i e).handed = s.handed ∧ (s.setStationRuntime i
    e).pending = s.pending ∧ (s.setStationRuntime i e).cgt.stations = s.cgt.stations ∧ (s.setStationRuntime i
    e).cgt.actuators = s.cgt.actuators :=
  ⟨rfl, rfl, rfl, rfl, rfl, rfl, rfl, rfl, rfl, rfl, rfl, rfl, rfl⟩

@[simp] theorem stationRuntime_setStationRuntime (i : Nat) (e : StationRuntime) (j : Nat) : (s.setStationRuntime i e).stationRuntime j = if j = i then e else s.stationRuntime j :=
  Tab.read_write _ _ _ _ _

@[simp] theorem setProbeCal_fields (i : Nat) (e : ProbeCal) :
    (s.setProbeCal i e).slp = s.slp ∧ (s.setProbeCal i e).fsp = s.fsp ∧ (s.setProbeCal i e).cgt = s.cgt ∧
    (s.setProbeCal i e).tmb = s.tmb ∧ (s.setProbeCal i e).frs = s.frs ∧ (s.setProbeCal i e).csu = s.csu ∧
    (s.setProbeCal i e).hoc = s.hoc ∧ (s.setProbeCal i e).alb = s.alb ∧ (s.setProbeCal i e).mga = s.mga ∧
    (s.setProbeCal i e).handed = s.handed ∧ (s.setProbeCal i e).pending = s.pending ∧ (s.setProbeCal i
    e).cls.profiles = s.cls.profiles ∧ (s.setProbeCal i e).cls.zones = s.cls.zones ∧ (s.setProbeCal i
    e).cls.probeState = s.cls.probeState ∧ (s.setProbeCal i e).cls.climate = s.cls.climate :=
  ⟨rfl, rfl, rfl, rfl, rfl, rfl, rfl, rfl, rfl, rfl, rfl, rfl, rfl, rfl, rfl⟩

@[simp] theorem probeCal_setProbeCal (i : Nat) (e : ProbeCal) (j : Nat) : (s.setProbeCal i e).probeCal j = if j = i then e else s.probeCal j :=
  Tab.read_write _ _ _ _ _

@[simp] theorem setProfile_fields (i : Nat) (e : Profile) :
    (s.setProfile i e).slp = s.slp ∧ (s.setProfile i e).fsp = s.fsp ∧ (s.setProfile i e).cgt = s.cgt ∧ (s.setProfile
    i e).tmb = s.tmb ∧ (s.setProfile i e).frs = s.frs ∧ (s.setProfile i e).csu = s.csu ∧ (s.setProfile i e).hoc =
    s.hoc ∧ (s.setProfile i e).alb = s.alb ∧ (s.setProfile i e).mga = s.mga ∧ (s.setProfile i e).handed = s.handed ∧
    (s.setProfile i e).pending = s.pending ∧ (s.setProfile i e).cls.probes = s.cls.probes ∧ (s.setProfile i
    e).cls.zones = s.cls.zones ∧ (s.setProfile i e).cls.probeState = s.cls.probeState ∧ (s.setProfile i
    e).cls.climate = s.cls.climate :=
  ⟨rfl, rfl, rfl, rfl, rfl, rfl, rfl, rfl, rfl, rfl, rfl, rfl, rfl, rfl, rfl⟩

@[simp] theorem profile_setProfile (i : Nat) (e : Profile) (j : Nat) : (s.setProfile i e).profile j = if j = i then e else s.profile j :=
  Tab.read_write _ _ _ _ _

@[simp] theorem setZone_fields (i : Nat) (e : ZoneEntry) :
    (s.setZone i e).slp = s.slp ∧ (s.setZone i e).fsp = s.fsp ∧ (s.setZone i e).cgt = s.cgt ∧ (s.setZone i e).tmb =
    s.tmb ∧ (s.setZone i e).frs = s.frs ∧ (s.setZone i e).csu = s.csu ∧ (s.setZone i e).hoc = s.hoc ∧ (s.setZone i
    e).alb = s.alb ∧ (s.setZone i e).mga = s.mga ∧ (s.setZone i e).handed = s.handed ∧ (s.setZone i e).pending =
    s.pending ∧ (s.setZone i e).cls.probes = s.cls.probes ∧ (s.setZone i e).cls.profiles = s.cls.profiles ∧
    (s.setZone i e).cls.probeState = s.cls.probeState ∧ (s.setZone i e).cls.climate = s.cls.climate :=
  ⟨rfl, rfl, rfl, rfl, rfl, rfl, rfl, rfl, rfl, rfl, rfl, rfl, rfl, rfl, rfl⟩

@[simp] theorem zone_setZone (i : Nat) (e : ZoneEntry) (j : Nat) : (s.setZone i e).zone j = if j = i then e else s.zone j :=
  Tab.read_write _ _ _ _ _

@[simp] theorem setProbeState_fields (i : Nat) (e : ProbeState) :
    (s.setProbeState i e).slp = s.slp ∧ (s.setProbeState i e).fsp = s.fsp ∧ (s.setProbeState i e).cgt = s.cgt ∧
    (s.setProbeState i e).tmb = s.tmb ∧ (s.setProbeState i e).frs = s.frs ∧ (s.setProbeState i e).csu = s.csu ∧
    (s.setProbeState i e).hoc = s.hoc ∧ (s.setProbeState i e).alb = s.alb ∧ (s.setProbeState i e).mga = s.mga ∧
    (s.setProbeState i e).handed = s.handed ∧ (s.setProbeState i e).pending = s.pending ∧ (s.setProbeState i
    e).cls.probes = s.cls.probes ∧ (s.setProbeState i e).cls.profiles = s.cls.profiles ∧ (s.setProbeState i
    e).cls.zones = s.cls.zones ∧ (s.setProbeState i e).cls.climate = s.cls.climate :=
  ⟨rfl, rfl, rfl, rfl, rfl, rfl, rfl, rfl, rfl, rfl, rfl, rfl, rfl, rfl, rfl⟩

@[simp] theorem probeState_setProbeState (i : Nat) (e : ProbeState) (j : Nat) : (s.setProbeState i e).probeState j = if j = i then e else s.probeState j :=
  Tab.read_write _ _ _ _ _

@[simp] theorem setClimate_fields (i : Nat) (e : ClimateRec) :
    (s.setClimate i e).slp = s.slp ∧ (s.setClimate i e).fsp = s.fsp ∧ (s.setClimate i e).cgt = s.cgt ∧ (s.setClimate
    i e).tmb = s.tmb ∧ (s.setClimate i e).frs = s.frs ∧ (s.setClimate i e).csu = s.csu ∧ (s.setClimate i e).hoc =
    s.hoc ∧ (s.setClimate i e).alb = s.alb ∧ (s.setClimate i e).mga = s.mga ∧ (s.setClimate i e).handed = s.handed ∧
    (s.setClimate i e).pending = s.pending ∧ (s.setClimate i e).cls.probes = s.cls.probes ∧ (s.setClimate i
    e).cls.profiles = s.cls.profiles ∧ (s.setClimate i e).cls.zones = s.cls.zones ∧ (s.setClimate i
    e).cls.probeState = s.cls.probeState :=
  ⟨rfl, rfl, rfl, rfl, rfl, rfl, rfl, rfl, rfl, rfl, rfl, rfl, rfl, rfl, rfl⟩

@[simp] theorem climate_setClimate (i : Nat) (e : ClimateRec) (j : Nat) : (s.setClimate i e).climate j = if j = i then e else s.climate j :=
  Tab.read_write _ _ _ _ _

@[simp] theorem setInputKind_fields (i : Nat) (e : InputKind) :
    (s.setInputKind i e).slp = s.slp ∧ (s.setInputKind i e).fsp = s.fsp ∧ (s.setInputKind i e).cgt = s.cgt ∧
    (s.setInputKind i e).tmb = s.tmb ∧ (s.setInputKind i e).cls = s.cls ∧ (s.setInputKind i e).csu = s.csu ∧
    (s.setInputKind i e).hoc = s.hoc ∧ (s.setInputKind i e).alb = s.alb ∧ (s.setInputKind i e).mga = s.mga ∧
    (s.setInputKind i e).handed = s.handed ∧ (s.setInputKind i e).pending = s.pending ∧ (s.setInputKind i
    e).frs.stages = s.frs.stages ∧ (s.setInputKind i e).frs.fire = s.frs.fire :=
  ⟨rfl, rfl, rfl, rfl, rfl, rfl, rfl, rfl, rfl, rfl, rfl, rfl, rfl⟩

@[simp] theorem inputKind_setInputKind (i : Nat) (e : InputKind) (j : Nat) : (s.setInputKind i e).inputKind j = if j = i then e else s.inputKind j :=
  Tab.read_write _ _ _ _ _

@[simp] theorem setInputStage_fields (i : Nat) (e : Stage) :
    (s.setInputStage i e).slp = s.slp ∧ (s.setInputStage i e).fsp = s.fsp ∧ (s.setInputStage i e).cgt = s.cgt ∧
    (s.setInputStage i e).tmb = s.tmb ∧ (s.setInputStage i e).cls = s.cls ∧ (s.setInputStage i e).csu = s.csu ∧
    (s.setInputStage i e).hoc = s.hoc ∧ (s.setInputStage i e).alb = s.alb ∧ (s.setInputStage i e).mga = s.mga ∧
    (s.setInputStage i e).handed = s.handed ∧ (s.setInputStage i e).pending = s.pending ∧ (s.setInputStage i
    e).frs.inputs = s.frs.inputs ∧ (s.setInputStage i e).frs.fire = s.frs.fire :=
  ⟨rfl, rfl, rfl, rfl, rfl, rfl, rfl, rfl, rfl, rfl, rfl, rfl, rfl⟩

@[simp] theorem inputStage_setInputStage (i : Nat) (e : Stage) (j : Nat) : (s.setInputStage i e).inputStage j = if j = i then e else s.inputStage j :=
  Tab.read_write _ _ _ _ _

@[simp] theorem setFire_fields (i : Nat) (e : FireRec) :
    (s.setFire i e).slp = s.slp ∧ (s.setFire i e).fsp = s.fsp ∧ (s.setFire i e).cgt = s.cgt ∧ (s.setFire i e).tmb =
    s.tmb ∧ (s.setFire i e).cls = s.cls ∧ (s.setFire i e).csu = s.csu ∧ (s.setFire i e).hoc = s.hoc ∧ (s.setFire i
    e).alb = s.alb ∧ (s.setFire i e).mga = s.mga ∧ (s.setFire i e).handed = s.handed ∧ (s.setFire i e).pending =
    s.pending ∧ (s.setFire i e).frs.inputs = s.frs.inputs ∧ (s.setFire i e).frs.stages = s.frs.stages :=
  ⟨rfl, rfl, rfl, rfl, rfl, rfl, rfl, rfl, rfl, rfl, rfl, rfl, rfl⟩

@[simp] theorem fire_setFire (i : Nat) (e : FireRec) (j : Nat) : (s.setFire i e).fire j = if j = i then e else s.fire j :=
  Tab.read_write _ _ _ _ _

@[simp] theorem setClassEntry_fields (i : Nat) (e : ClassEntry) :
    (s.setClassEntry i e).slp = s.slp ∧ (s.setClassEntry i e).fsp = s.fsp ∧ (s.setClassEntry i e).cgt = s.cgt ∧
    (s.setClassEntry i e).tmb = s.tmb ∧ (s.setClassEntry i e).cls = s.cls ∧ (s.setClassEntry i e).frs = s.frs ∧
    (s.setClassEntry i e).hoc = s.hoc ∧ (s.setClassEntry i e).alb = s.alb ∧ (s.setClassEntry i e).mga = s.mga ∧
    (s.setClassEntry i e).handed = s.handed ∧ (s.setClassEntry i e).pending = s.pending ∧ (s.setClassEntry i
    e).csu.media = s.csu.media ∧ (s.setClassEntry i e).csu.scan = s.csu.scan ∧ (s.setClassEntry i e).csu.sweep =
    s.csu.sweep :=
  ⟨rfl, rfl, rfl, rfl, rfl, rfl, rfl, rfl, rfl, rfl, rfl, rfl, rfl, rfl⟩

@[simp] theorem classEntry_setClassEntry (i : Nat) (e : ClassEntry) (j : Nat) : (s.setClassEntry i e).classEntry j = if j = i then e else s.classEntry j :=
  Tab.read_write _ _ _ _ _

@[simp] theorem setMedia_fields (i : Nat) (e : Option MediaRec) :
    (s.setMedia i e).slp = s.slp ∧ (s.setMedia i e).fsp = s.fsp ∧ (s.setMedia i e).cgt = s.cgt ∧ (s.setMedia i
    e).tmb = s.tmb ∧ (s.setMedia i e).cls = s.cls ∧ (s.setMedia i e).frs = s.frs ∧ (s.setMedia i e).hoc = s.hoc ∧
    (s.setMedia i e).alb = s.alb ∧ (s.setMedia i e).mga = s.mga ∧ (s.setMedia i e).handed = s.handed ∧ (s.setMedia i
    e).pending = s.pending ∧ (s.setMedia i e).csu.classes = s.csu.classes ∧ (s.setMedia i e).csu.scan = s.csu.scan ∧
    (s.setMedia i e).csu.sweep = s.csu.sweep :=
  ⟨rfl, rfl, rfl, rfl, rfl, rfl, rfl, rfl, rfl, rfl, rfl, rfl, rfl, rfl⟩

@[simp] theorem mediaAt_setMedia (i : Nat) (e : Option MediaRec) (j : Nat) : (s.setMedia i e).mediaAt j = if j = i then e else s.mediaAt j :=
  Tab.read_write _ _ _ _ _

@[simp] theorem setHatch_fields (i : Nat) (e : HatchEntry) :
    (s.setHatch i e).slp = s.slp ∧ (s.setHatch i e).fsp = s.fsp ∧ (s.setHatch i e).cgt = s.cgt ∧ (s.setHatch i
    e).tmb = s.tmb ∧ (s.setHatch i e).cls = s.cls ∧ (s.setHatch i e).frs = s.frs ∧ (s.setHatch i e).csu = s.csu ∧
    (s.setHatch i e).alb = s.alb ∧ (s.setHatch i e).mga = s.mga ∧ (s.setHatch i e).handed = s.handed ∧ (s.setHatch i
    e).pending = s.pending ∧ (s.setHatch i e).hoc.runtime = s.hoc.runtime ∧ (s.setHatch i e).hoc.consignments =
    s.hoc.consignments :=
  ⟨rfl, rfl, rfl, rfl, rfl, rfl, rfl, rfl, rfl, rfl, rfl, rfl, rfl⟩

@[simp] theorem hatch_setHatch (i : Nat) (e : HatchEntry) (j : Nat) : (s.setHatch i e).hatch j = if j = i then e else s.hatch j :=
  Tab.read_write _ _ _ _ _

@[simp] theorem setHatchRuntime_fields (i : Nat) (e : HatchRuntime) :
    (s.setHatchRuntime i e).slp = s.slp ∧ (s.setHatchRuntime i e).fsp = s.fsp ∧ (s.setHatchRuntime i e).cgt = s.cgt
    ∧ (s.setHatchRuntime i e).tmb = s.tmb ∧ (s.setHatchRuntime i e).cls = s.cls ∧ (s.setHatchRuntime i e).frs =
    s.frs ∧ (s.setHatchRuntime i e).csu = s.csu ∧ (s.setHatchRuntime i e).alb = s.alb ∧ (s.setHatchRuntime i e).mga
    = s.mga ∧ (s.setHatchRuntime i e).handed = s.handed ∧ (s.setHatchRuntime i e).pending = s.pending ∧
    (s.setHatchRuntime i e).hoc.hatches = s.hoc.hatches ∧ (s.setHatchRuntime i e).hoc.consignments =
    s.hoc.consignments :=
  ⟨rfl, rfl, rfl, rfl, rfl, rfl, rfl, rfl, rfl, rfl, rfl, rfl, rfl⟩

@[simp] theorem hatchRuntime_setHatchRuntime (i : Nat) (e : HatchRuntime) (j : Nat) : (s.setHatchRuntime i e).hatchRuntime j = if j = i then e else s.hatchRuntime j :=
  Tab.read_write _ _ _ _ _

@[simp] theorem setReleaseTimer_fields (i : Nat) (e : Timer) :
    (s.setReleaseTimer i e).slp = s.slp ∧ (s.setReleaseTimer i e).fsp = s.fsp ∧ (s.setReleaseTimer i e).cgt = s.cgt
    ∧ (s.setReleaseTimer i e).cls = s.cls ∧ (s.setReleaseTimer i e).frs = s.frs ∧ (s.setReleaseTimer i e).csu =
    s.csu ∧ (s.setReleaseTimer i e).hoc = s.hoc ∧ (s.setReleaseTimer i e).alb = s.alb ∧ (s.setReleaseTimer i e).mga
    = s.mga ∧ (s.setReleaseTimer i e).handed = s.handed ∧ (s.setReleaseTimer i e).pending = s.pending ∧
    (s.setReleaseTimer i e).tmb.secondCount = s.tmb.secondCount ∧ (s.setReleaseTimer i e).tmb.minuteClock =
    s.tmb.minuteClock ∧ (s.setReleaseTimer i e).tmb.step = s.tmb.step ∧ (s.setReleaseTimer i e).tmb.dwell =
    s.tmb.dwell ∧ (s.setReleaseTimer i e).tmb.supervision = s.tmb.supervision ∧ (s.setReleaseTimer i e).tmb.retry =
    s.tmb.retry ∧ (s.setReleaseTimer i e).tmb.pulse = s.tmb.pulse :=
  ⟨rfl, rfl, rfl, rfl, rfl, rfl, rfl, rfl, rfl, rfl, rfl, rfl, rfl, rfl, rfl, rfl, rfl, rfl⟩

@[simp] theorem releaseTimer_setReleaseTimer (i : Nat) (e : Timer) (j : Nat) : (s.setReleaseTimer i e).releaseTimer j = if j = i then e else s.releaseTimer j :=
  Tab.read_write _ _ _ _ _

@[simp] theorem setStepTimer_fields (i : Nat) (e : Timer) :
    (s.setStepTimer i e).slp = s.slp ∧ (s.setStepTimer i e).fsp = s.fsp ∧ (s.setStepTimer i e).cgt = s.cgt ∧
    (s.setStepTimer i e).cls = s.cls ∧ (s.setStepTimer i e).frs = s.frs ∧ (s.setStepTimer i e).csu = s.csu ∧
    (s.setStepTimer i e).hoc = s.hoc ∧ (s.setStepTimer i e).alb = s.alb ∧ (s.setStepTimer i e).mga = s.mga ∧
    (s.setStepTimer i e).handed = s.handed ∧ (s.setStepTimer i e).pending = s.pending ∧ (s.setStepTimer i
    e).tmb.secondCount = s.tmb.secondCount ∧ (s.setStepTimer i e).tmb.minuteClock = s.tmb.minuteClock ∧
    (s.setStepTimer i e).tmb.release = s.tmb.release ∧ (s.setStepTimer i e).tmb.dwell = s.tmb.dwell ∧
    (s.setStepTimer i e).tmb.supervision = s.tmb.supervision ∧ (s.setStepTimer i e).tmb.retry = s.tmb.retry ∧
    (s.setStepTimer i e).tmb.pulse = s.tmb.pulse :=
  ⟨rfl, rfl, rfl, rfl, rfl, rfl, rfl, rfl, rfl, rfl, rfl, rfl, rfl, rfl, rfl, rfl, rfl, rfl⟩

@[simp] theorem stepTimer_setStepTimer (i : Nat) (e : Timer) (j : Nat) : (s.setStepTimer i e).stepTimer j = if j = i then e else s.stepTimer j :=
  Tab.read_write _ _ _ _ _

@[simp] theorem setDwellTimer_fields (i : Nat) (e : Timer) :
    (s.setDwellTimer i e).slp = s.slp ∧ (s.setDwellTimer i e).fsp = s.fsp ∧ (s.setDwellTimer i e).cgt = s.cgt ∧
    (s.setDwellTimer i e).cls = s.cls ∧ (s.setDwellTimer i e).frs = s.frs ∧ (s.setDwellTimer i e).csu = s.csu ∧
    (s.setDwellTimer i e).hoc = s.hoc ∧ (s.setDwellTimer i e).alb = s.alb ∧ (s.setDwellTimer i e).mga = s.mga ∧
    (s.setDwellTimer i e).handed = s.handed ∧ (s.setDwellTimer i e).pending = s.pending ∧ (s.setDwellTimer i
    e).tmb.secondCount = s.tmb.secondCount ∧ (s.setDwellTimer i e).tmb.minuteClock = s.tmb.minuteClock ∧
    (s.setDwellTimer i e).tmb.release = s.tmb.release ∧ (s.setDwellTimer i e).tmb.step = s.tmb.step ∧
    (s.setDwellTimer i e).tmb.supervision = s.tmb.supervision ∧ (s.setDwellTimer i e).tmb.retry = s.tmb.retry ∧
    (s.setDwellTimer i e).tmb.pulse = s.tmb.pulse :=
  ⟨rfl, rfl, rfl, rfl, rfl, rfl, rfl, rfl, rfl, rfl, rfl, rfl, rfl, rfl, rfl, rfl, rfl, rfl⟩

@[simp] theorem dwellTimer_setDwellTimer (i : Nat) (e : Timer) (j : Nat) : (s.setDwellTimer i e).dwellTimer j = if j = i then e else s.dwellTimer j :=
  Tab.read_write _ _ _ _ _

@[simp] theorem setAlertRec_fields (i : Nat) (e : AlertRec) :
    (s.setAlertRec i e).slp = s.slp ∧ (s.setAlertRec i e).fsp = s.fsp ∧ (s.setAlertRec i e).cgt = s.cgt ∧
    (s.setAlertRec i e).tmb = s.tmb ∧ (s.setAlertRec i e).cls = s.cls ∧ (s.setAlertRec i e).frs = s.frs ∧
    (s.setAlertRec i e).csu = s.csu ∧ (s.setAlertRec i e).hoc = s.hoc ∧ (s.setAlertRec i e).mga = s.mga ∧
    (s.setAlertRec i e).handed = s.handed ∧ (s.setAlertRec i e).pending = s.pending ∧ (s.setAlertRec i e).alb.held =
    s.alb.held :=
  ⟨rfl, rfl, rfl, rfl, rfl, rfl, rfl, rfl, rfl, rfl, rfl, rfl⟩

@[simp] theorem alertRec_setAlertRec (i : Nat) (e : AlertRec) (j : Nat) : (s.setAlertRec i e).alertRec j = if j = i then e else s.alertRec j :=
  Tab.read_write _ _ _ _ _

@[simp] theorem setSupervision_fields (e : Timer) :
    (s.setSupervision e).slp = s.slp ∧ (s.setSupervision e).fsp = s.fsp ∧ (s.setSupervision e).cgt = s.cgt ∧
    (s.setSupervision e).cls = s.cls ∧ (s.setSupervision e).frs = s.frs ∧ (s.setSupervision e).csu = s.csu ∧
    (s.setSupervision e).hoc = s.hoc ∧ (s.setSupervision e).alb = s.alb ∧ (s.setSupervision e).mga = s.mga ∧
    (s.setSupervision e).handed = s.handed ∧ (s.setSupervision e).pending = s.pending ∧ (s.setSupervision
    e).tmb.secondCount = s.tmb.secondCount ∧ (s.setSupervision e).tmb.minuteClock = s.tmb.minuteClock ∧
    (s.setSupervision e).tmb.release = s.tmb.release ∧ (s.setSupervision e).tmb.step = s.tmb.step ∧
    (s.setSupervision e).tmb.dwell = s.tmb.dwell ∧ (s.setSupervision e).tmb.supervision = e ∧ (s.setSupervision
    e).tmb.retry = s.tmb.retry ∧ (s.setSupervision e).tmb.pulse = s.tmb.pulse :=
  ⟨rfl, rfl, rfl, rfl, rfl, rfl, rfl, rfl, rfl, rfl, rfl, rfl, rfl, rfl, rfl, rfl, rfl, rfl, rfl⟩

@[simp] theorem setRetry_fields (e : Timer) :
    (s.setRetry e).slp = s.slp ∧ (s.setRetry e).fsp = s.fsp ∧ (s.setRetry e).cgt = s.cgt ∧ (s.setRetry e).cls =
    s.cls ∧ (s.setRetry e).frs = s.frs ∧ (s.setRetry e).csu = s.csu ∧ (s.setRetry e).hoc = s.hoc ∧ (s.setRetry
    e).alb = s.alb ∧ (s.setRetry e).mga = s.mga ∧ (s.setRetry e).handed = s.handed ∧ (s.setRetry e).pending =
    s.pending ∧ (s.setRetry e).tmb.secondCount = s.tmb.secondCount ∧ (s.setRetry e).tmb.minuteClock =
    s.tmb.minuteClock ∧ (s.setRetry e).tmb.release = s.tmb.release ∧ (s.setRetry e).tmb.step = s.tmb.step ∧
    (s.setRetry e).tmb.dwell = s.tmb.dwell ∧ (s.setRetry e).tmb.supervision = s.tmb.supervision ∧ (s.setRetry
    e).tmb.retry = e ∧ (s.setRetry e).tmb.pulse = s.tmb.pulse :=
  ⟨rfl, rfl, rfl, rfl, rfl, rfl, rfl, rfl, rfl, rfl, rfl, rfl, rfl, rfl, rfl, rfl, rfl, rfl, rfl⟩

@[simp] theorem setPulse_fields (e : Timer) :
    (s.setPulse e).slp = s.slp ∧ (s.setPulse e).fsp = s.fsp ∧ (s.setPulse e).cgt = s.cgt ∧ (s.setPulse e).cls =
    s.cls ∧ (s.setPulse e).frs = s.frs ∧ (s.setPulse e).csu = s.csu ∧ (s.setPulse e).hoc = s.hoc ∧ (s.setPulse
    e).alb = s.alb ∧ (s.setPulse e).mga = s.mga ∧ (s.setPulse e).handed = s.handed ∧ (s.setPulse e).pending =
    s.pending ∧ (s.setPulse e).tmb.secondCount = s.tmb.secondCount ∧ (s.setPulse e).tmb.minuteClock =
    s.tmb.minuteClock ∧ (s.setPulse e).tmb.release = s.tmb.release ∧ (s.setPulse e).tmb.step = s.tmb.step ∧
    (s.setPulse e).tmb.dwell = s.tmb.dwell ∧ (s.setPulse e).tmb.supervision = s.tmb.supervision ∧ (s.setPulse
    e).tmb.retry = s.tmb.retry ∧ (s.setPulse e).tmb.pulse = e :=
  ⟨rfl, rfl, rfl, rfl, rfl, rfl, rfl, rfl, rfl, rfl, rfl, rfl, rfl, rfl, rfl, rfl, rfl, rfl, rfl⟩

@[simp] theorem setConsignment_fields (e : Consignment) :
    (s.setConsignment e).slp = s.slp ∧ (s.setConsignment e).fsp = s.fsp ∧ (s.setConsignment e).cgt = s.cgt ∧
    (s.setConsignment e).tmb = s.tmb ∧ (s.setConsignment e).cls = s.cls ∧ (s.setConsignment e).frs = s.frs ∧
    (s.setConsignment e).csu = s.csu ∧ (s.setConsignment e).alb = s.alb ∧ (s.setConsignment e).mga = s.mga ∧
    (s.setConsignment e).handed = s.handed ∧ (s.setConsignment e).pending = s.pending ∧ (s.setConsignment
    e).hoc.hatches = s.hoc.hatches ∧ (s.setConsignment e).hoc.runtime = s.hoc.runtime :=
  ⟨rfl, rfl, rfl, rfl, rfl, rfl, rfl, rfl, rfl, rfl, rfl, rfl, rfl⟩

@[simp] theorem addConsignment_fields (e : Consignment) :
    (s.addConsignment e).slp = s.slp ∧ (s.addConsignment e).fsp = s.fsp ∧ (s.addConsignment e).cgt = s.cgt ∧
    (s.addConsignment e).tmb = s.tmb ∧ (s.addConsignment e).cls = s.cls ∧ (s.addConsignment e).frs = s.frs ∧
    (s.addConsignment e).csu = s.csu ∧ (s.addConsignment e).alb = s.alb ∧ (s.addConsignment e).mga = s.mga ∧
    (s.addConsignment e).handed = s.handed ∧ (s.addConsignment e).pending = s.pending ∧ (s.addConsignment
    e).hoc.hatches = s.hoc.hatches ∧ (s.addConsignment e).hoc.runtime = s.hoc.runtime ∧ (s.addConsignment
    e).hoc.consignments = s.hoc.consignments ++ [e] :=
  ⟨rfl, rfl, rfl, rfl, rfl, rfl, rfl, rfl, rfl, rfl, rfl, rfl, rfl, rfl⟩

@[simp] theorem dropConsignment_fields (n : Nat) :
    (s.dropConsignment n).slp = s.slp ∧ (s.dropConsignment n).fsp = s.fsp ∧ (s.dropConsignment n).cgt = s.cgt ∧
    (s.dropConsignment n).tmb = s.tmb ∧ (s.dropConsignment n).cls = s.cls ∧ (s.dropConsignment n).frs = s.frs ∧
    (s.dropConsignment n).csu = s.csu ∧ (s.dropConsignment n).alb = s.alb ∧ (s.dropConsignment n).mga = s.mga ∧
    (s.dropConsignment n).handed = s.handed ∧ (s.dropConsignment n).pending = s.pending ∧ (s.dropConsignment
    n).hoc.hatches = s.hoc.hatches ∧ (s.dropConsignment n).hoc.runtime = s.hoc.runtime :=
  ⟨rfl, rfl, rfl, rfl, rfl, rfl, rfl, rfl, rfl, rfl, rfl, rfl, rfl⟩

@[simp] theorem hand_fields (c : Instr) :
    (s.hand c).slp = s.slp ∧ (s.hand c).fsp = s.fsp ∧ (s.hand c).cgt = s.cgt ∧ (s.hand c).tmb = s.tmb ∧ (s.hand
    c).cls = s.cls ∧ (s.hand c).frs = s.frs ∧ (s.hand c).csu = s.csu ∧ (s.hand c).hoc = s.hoc ∧ (s.hand c).alb =
    s.alb ∧ (s.hand c).mga = s.mga ∧ (s.hand c).pending = s.pending ∧ (s.hand c).handed = s.handed ++ [c] :=
  ⟨rfl, rfl, rfl, rfl, rfl, rfl, rfl, rfl, rfl, rfl, rfl, rfl⟩

@[simp] theorem takeHanded_fields (c : Instr) :
    (s.takeHanded c).slp = s.slp ∧ (s.takeHanded c).fsp = s.fsp ∧ (s.takeHanded c).cgt = s.cgt ∧ (s.takeHanded
    c).tmb = s.tmb ∧ (s.takeHanded c).cls = s.cls ∧ (s.takeHanded c).frs = s.frs ∧ (s.takeHanded c).csu = s.csu ∧
    (s.takeHanded c).hoc = s.hoc ∧ (s.takeHanded c).alb = s.alb ∧ (s.takeHanded c).mga = s.mga ∧ (s.takeHanded
    c).pending = s.pending ∧ (s.takeHanded c).handed = s.handed.erase c :=
  ⟨rfl, rfl, rfl, rfl, rfl, rfl, rfl, rfl, rfl, rfl, rfl, rfl⟩

@[simp] theorem setSegment_fields (g : Segment) :
    (s.setSegment g).slp = s.slp ∧ (s.setSegment g).cgt = s.cgt ∧ (s.setSegment g).tmb = s.tmb ∧ (s.setSegment
    g).cls = s.cls ∧ (s.setSegment g).frs = s.frs ∧ (s.setSegment g).csu = s.csu ∧ (s.setSegment g).hoc = s.hoc ∧
    (s.setSegment g).alb = s.alb ∧ (s.setSegment g).mga = s.mga ∧ (s.setSegment g).handed = s.handed ∧ (s.setSegment
    g).pending = s.pending ∧ (s.setSegment g).fsp.rx = s.fsp.rx ∧ (s.setSegment g).fsp.rxInWindow = s.fsp.rxInWindow
    ∧ (s.setSegment g).fsp.segment = g ∧ (s.setSegment g).fsp.pollPos = s.fsp.pollPos ∧ (s.setSegment
    g).fsp.lastNonUrgent = s.fsp.lastNonUrgent ∧ (s.setSegment g).fsp.urgent = s.fsp.urgent ∧ (s.setSegment
    g).fsp.ordinary = s.fsp.ordinary :=
  ⟨rfl, rfl, rfl, rfl, rfl, rfl, rfl, rfl, rfl, rfl, rfl, rfl, rfl, rfl, rfl, rfl, rfl, rfl⟩

@[simp] theorem setScan_fields (r : ScanRec) :
    (s.setScan r).slp = s.slp ∧ (s.setScan r).fsp = s.fsp ∧ (s.setScan r).cgt = s.cgt ∧ (s.setScan r).tmb = s.tmb ∧
    (s.setScan r).cls = s.cls ∧ (s.setScan r).frs = s.frs ∧ (s.setScan r).hoc = s.hoc ∧ (s.setScan r).alb = s.alb ∧
    (s.setScan r).mga = s.mga ∧ (s.setScan r).handed = s.handed ∧ (s.setScan r).pending = s.pending ∧ (s.setScan
    r).csu.classes = s.csu.classes ∧ (s.setScan r).csu.media = s.csu.media ∧ (s.setScan r).csu.scan = r ∧ (s.setScan
    r).csu.sweep = s.csu.sweep :=
  ⟨rfl, rfl, rfl, rfl, rfl, rfl, rfl, rfl, rfl, rfl, rfl, rfl, rfl, rfl, rfl⟩

@[simp] theorem setSweep_fields (r : SweepRec) :
    (s.setSweep r).slp = s.slp ∧ (s.setSweep r).fsp = s.fsp ∧ (s.setSweep r).cgt = s.cgt ∧ (s.setSweep r).tmb =
    s.tmb ∧ (s.setSweep r).cls = s.cls ∧ (s.setSweep r).frs = s.frs ∧ (s.setSweep r).hoc = s.hoc ∧ (s.setSweep
    r).alb = s.alb ∧ (s.setSweep r).mga = s.mga ∧ (s.setSweep r).handed = s.handed ∧ (s.setSweep r).pending =
    s.pending ∧ (s.setSweep r).csu.classes = s.csu.classes ∧ (s.setSweep r).csu.media = s.csu.media ∧ (s.setSweep
    r).csu.scan = s.csu.scan ∧ (s.setSweep r).csu.sweep = r :=
  ⟨rfl, rfl, rfl, rfl, rfl, rfl, rfl, rfl, rfl, rfl, rfl, rfl, rfl, rfl, rfl⟩

@[simp] theorem setMga_fields (m : Mga) :
    (s.setMga m).slp = s.slp ∧ (s.setMga m).fsp = s.fsp ∧ (s.setMga m).cgt = s.cgt ∧ (s.setMga m).tmb = s.tmb ∧
    (s.setMga m).cls = s.cls ∧ (s.setMga m).frs = s.frs ∧ (s.setMga m).csu = s.csu ∧ (s.setMga m).hoc = s.hoc ∧
    (s.setMga m).alb = s.alb ∧ (s.setMga m).handed = s.handed ∧ (s.setMga m).pending = s.pending ∧ (s.setMga m).mga
    = m :=
  ⟨rfl, rfl, rfl, rfl, rfl, rfl, rfl, rfl, rfl, rfl, rfl, rfl⟩

@[simp] theorem setSecondCount_fields (n : Nat) :
    (s.setSecondCount n).slp = s.slp ∧ (s.setSecondCount n).fsp = s.fsp ∧ (s.setSecondCount n).cgt = s.cgt ∧
    (s.setSecondCount n).cls = s.cls ∧ (s.setSecondCount n).frs = s.frs ∧ (s.setSecondCount n).csu = s.csu ∧
    (s.setSecondCount n).hoc = s.hoc ∧ (s.setSecondCount n).alb = s.alb ∧ (s.setSecondCount n).mga = s.mga ∧
    (s.setSecondCount n).handed = s.handed ∧ (s.setSecondCount n).pending = s.pending ∧ (s.setSecondCount
    n).tmb.secondCount = n ∧ (s.setSecondCount n).tmb.minuteClock = s.tmb.minuteClock ∧ (s.setSecondCount
    n).tmb.release = s.tmb.release ∧ (s.setSecondCount n).tmb.step = s.tmb.step ∧ (s.setSecondCount n).tmb.dwell =
    s.tmb.dwell ∧ (s.setSecondCount n).tmb.supervision = s.tmb.supervision ∧ (s.setSecondCount n).tmb.retry =
    s.tmb.retry ∧ (s.setSecondCount n).tmb.pulse = s.tmb.pulse :=
  ⟨rfl, rfl, rfl, rfl, rfl, rfl, rfl, rfl, rfl, rfl, rfl, rfl, rfl, rfl, rfl, rfl, rfl, rfl, rfl⟩

@[simp] theorem setStation_accessors (i : Nat) (e : StationEntry) (j : Nat) :
    (s.setStation i e).actuator j = s.actuator j ∧ (s.setStation i e).stationRuntime j = s.stationRuntime j :=
  ⟨rfl, rfl⟩

@[simp] theorem setActuator_accessors (i : Nat) (e : Function) (j : Nat) :
    (s.setActuator i e).station j = s.station j ∧ (s.setActuator i e).stationRuntime j = s.stationRuntime j :=
  ⟨rfl, rfl⟩

@[simp] theorem setStationRuntime_accessors (i : Nat) (e : StationRuntime) (j : Nat) :
    (s.setStationRuntime i e).station j = s.station j ∧ (s.setStationRuntime i e).actuator j = s.actuator j :=
  ⟨rfl, rfl⟩

@[simp] theorem setProbeCal_accessors (i : Nat) (e : ProbeCal) (j : Nat) :
    (s.setProbeCal i e).profile j = s.profile j ∧ (s.setProbeCal i e).zone j = s.zone j ∧ (s.setProbeCal i
    e).probeState j = s.probeState j ∧ (s.setProbeCal i e).climate j = s.climate j :=
  ⟨rfl, rfl, rfl, rfl⟩

@[simp] theorem setProfile_accessors (i : Nat) (e : Profile) (j : Nat) :
    (s.setProfile i e).probeCal j = s.probeCal j ∧ (s.setProfile i e).zone j = s.zone j ∧ (s.setProfile i
    e).probeState j = s.probeState j ∧ (s.setProfile i e).climate j = s.climate j :=
  ⟨rfl, rfl, rfl, rfl⟩

@[simp] theorem setZone_accessors (i : Nat) (e : ZoneEntry) (j : Nat) :
    (s.setZone i e).probeCal j = s.probeCal j ∧ (s.setZone i e).profile j = s.profile j ∧ (s.setZone i e).probeState
    j = s.probeState j ∧ (s.setZone i e).climate j = s.climate j :=
  ⟨rfl, rfl, rfl, rfl⟩

@[simp] theorem setProbeState_accessors (i : Nat) (e : ProbeState) (j : Nat) :
    (s.setProbeState i e).probeCal j = s.probeCal j ∧ (s.setProbeState i e).profile j = s.profile j ∧
    (s.setProbeState i e).zone j = s.zone j ∧ (s.setProbeState i e).climate j = s.climate j :=
  ⟨rfl, rfl, rfl, rfl⟩

@[simp] theorem setClimate_accessors (i : Nat) (e : ClimateRec) (j : Nat) :
    (s.setClimate i e).probeCal j = s.probeCal j ∧ (s.setClimate i e).profile j = s.profile j ∧ (s.setClimate i
    e).zone j = s.zone j ∧ (s.setClimate i e).probeState j = s.probeState j :=
  ⟨rfl, rfl, rfl, rfl⟩

@[simp] theorem setInputKind_accessors (i : Nat) (e : InputKind) (j : Nat) :
    (s.setInputKind i e).inputStage j = s.inputStage j ∧ (s.setInputKind i e).fire j = s.fire j :=
  ⟨rfl, rfl⟩

@[simp] theorem setInputStage_accessors (i : Nat) (e : Stage) (j : Nat) :
    (s.setInputStage i e).inputKind j = s.inputKind j ∧ (s.setInputStage i e).fire j = s.fire j :=
  ⟨rfl, rfl⟩

@[simp] theorem setFire_accessors (i : Nat) (e : FireRec) (j : Nat) :
    (s.setFire i e).inputKind j = s.inputKind j ∧ (s.setFire i e).inputStage j = s.inputStage j :=
  ⟨rfl, rfl⟩

@[simp] theorem setClassEntry_accessors (i : Nat) (e : ClassEntry) (j : Nat) :
    (s.setClassEntry i e).mediaAt j = s.mediaAt j :=
  rfl

@[simp] theorem setMedia_accessors (i : Nat) (e : Option MediaRec) (j : Nat) :
    (s.setMedia i e).classEntry j = s.classEntry j :=
  rfl

@[simp] theorem setHatch_accessors (i : Nat) (e : HatchEntry) (j : Nat) :
    (s.setHatch i e).hatchRuntime j = s.hatchRuntime j :=
  rfl

@[simp] theorem setHatchRuntime_accessors (i : Nat) (e : HatchRuntime) (j : Nat) :
    (s.setHatchRuntime i e).hatch j = s.hatch j :=
  rfl

@[simp] theorem setReleaseTimer_accessors (i : Nat) (e : Timer) (j : Nat) :
    (s.setReleaseTimer i e).stepTimer j = s.stepTimer j ∧ (s.setReleaseTimer i e).dwellTimer j = s.dwellTimer j :=
  ⟨rfl, rfl⟩

@[simp] theorem setStepTimer_accessors (i : Nat) (e : Timer) (j : Nat) :
    (s.setStepTimer i e).releaseTimer j = s.releaseTimer j ∧ (s.setStepTimer i e).dwellTimer j = s.dwellTimer j :=
  ⟨rfl, rfl⟩

@[simp] theorem setDwellTimer_accessors (i : Nat) (e : Timer) (j : Nat) :
    (s.setDwellTimer i e).releaseTimer j = s.releaseTimer j ∧ (s.setDwellTimer i e).stepTimer j = s.stepTimer j :=
  ⟨rfl, rfl⟩

@[simp] theorem setSupervision_accessors (e : Timer) (j : Nat) :
    (s.setSupervision e).releaseTimer j = s.releaseTimer j ∧ (s.setSupervision e).stepTimer j = s.stepTimer j ∧
    (s.setSupervision e).dwellTimer j = s.dwellTimer j :=
  ⟨rfl, rfl, rfl⟩

@[simp] theorem setRetry_accessors (e : Timer) (j : Nat) :
    (s.setRetry e).releaseTimer j = s.releaseTimer j ∧ (s.setRetry e).stepTimer j = s.stepTimer j ∧ (s.setRetry
    e).dwellTimer j = s.dwellTimer j :=
  ⟨rfl, rfl, rfl⟩

@[simp] theorem setPulse_accessors (e : Timer) (j : Nat) :
    (s.setPulse e).releaseTimer j = s.releaseTimer j ∧ (s.setPulse e).stepTimer j = s.stepTimer j ∧ (s.setPulse
    e).dwellTimer j = s.dwellTimer j :=
  ⟨rfl, rfl, rfl⟩

@[simp] theorem setConsignment_accessors (e : Consignment) (j : Nat) :
    (s.setConsignment e).hatch j = s.hatch j ∧ (s.setConsignment e).hatchRuntime j = s.hatchRuntime j :=
  ⟨rfl, rfl⟩

@[simp] theorem addConsignment_accessors (e : Consignment) (j : Nat) :
    (s.addConsignment e).hatch j = s.hatch j ∧ (s.addConsignment e).hatchRuntime j = s.hatchRuntime j :=
  ⟨rfl, rfl⟩

@[simp] theorem dropConsignment_accessors (n : Nat) (j : Nat) :
    (s.dropConsignment n).hatch j = s.hatch j ∧ (s.dropConsignment n).hatchRuntime j = s.hatchRuntime j :=
  ⟨rfl, rfl⟩

@[simp] theorem setScan_accessors (r : ScanRec) (j : Nat) :
    (s.setScan r).classEntry j = s.classEntry j ∧ (s.setScan r).mediaAt j = s.mediaAt j :=
  ⟨rfl, rfl⟩

@[simp] theorem setSweep_accessors (r : SweepRec) (j : Nat) :
    (s.setSweep r).classEntry j = s.classEntry j ∧ (s.setSweep r).mediaAt j = s.mediaAt j :=
  ⟨rfl, rfl⟩

@[simp] theorem setSecondCount_accessors (n : Nat) (j : Nat) :
    (s.setSecondCount n).releaseTimer j = s.releaseTimer j ∧ (s.setSecondCount n).stepTimer j = s.stepTimer j ∧
    (s.setSecondCount n).dwellTimer j = s.dwellTimer j :=
  ⟨rfl, rfl, rfl⟩

end State

end Sys2Proof.Machine
end

