-- ==== Sys2Proof/Laws/Reports.lean ====
section
/-!
SUPPORT. Everything the site queue and alert operations of Machine/Flags.lean can do to the state, said once: a property
kept by the five updates of `KeepsReports` is kept by each of them. `Reported` is the instance that says what they leave.
-/
namespace Sys2Proof.Machine

/-- A property that each call keeps is kept by the fold. -/
theorem foldl_keeps {α : Type} {P : State → Prop} (f : State → α → State) (hf : ∀ s a, P s → P (f s a)) (l : List α) :
    ∀ s, P s → P (l.foldl f s) := by
  induction l with
  | nil => intro s hs; exact hs
  | cons a l ih => intro s hs; exact ih _ (hf s a hs)

/-- The updates a report can make. -/
structure KeepsReports (P : State → Prop) : Prop where
  enqueue : ∀ s f, P s → s.siteFull = false → P (s.siteEnqueue f)
  record : ∀ s k src, P s → P (s.latchRecord k src)
  pulse : ∀ s, P s → P s.pulseLatch
  present : ∀ s k p, P s → P ((s.setPresent k p).heldAfter k)

namespace KeepsReports

variable {P : State → Prop} (h : KeepsReports P) {s : State}
include h

theorem offerQuiet (f : SiteItem) (hs : P s) : P (s.offerQuiet f) := by
  unfold State.offerQuiet
  split
  · exact hs
  · rename_i hf; exact h.enqueue s f hs (by simpa using hf)

theorem raiseCongestion (l : Link) (hs : P s) : P (s.raiseCongestion l) := by
  unfold State.raiseCongestion
  dsimp only
  split
  · exact h.record _ _ _ hs
  · exact h.pulse _ (h.offerQuiet _ (h.record _ _ _ hs))

theorem offerSite (f : SiteItem) (hs : P s) : P (s.offerSite f) := by
  unfold State.offerSite
  split
  · exact h.raiseCongestion _ hs
  · rename_i hf; exact h.enqueue s f hs (by simpa using hf)

theorem offerNotice (p : List Byte) (hs : P s) : P (s.offerNotice p) := h.offerSite _ hs

theorem latch (k : AlertKind) (src : Nat) (hs : P s) : P (s.latch k src) := by
  unfold State.latch
  dsimp only
  split
  · exact h.record _ _ _ hs
  · exact h.pulse _ (h.offerNotice _ (h.record _ _ _ hs))

theorem raiseEvent (k : AlertKind) (src : Nat) (hs : P s) : P (s.raiseEvent k src) := h.latch _ _ hs

theorem raiseCondition (k : AlertKind) (src : Nat) (hs : P s) : P (s.raiseCondition k src) := by
  unfold State.raiseCondition
  dsimp only
  split
  · exact hs
  · exact h.latch _ _ (h.present _ _ _ hs)

theorem lower (k : AlertKind) (src : Nat) (hs : P s) : P (s.lower k src) := by
  unfold State.lower
  dsimp only
  split
  · exact h.present _ _ _ hs
  · exact hs

theorem lowerAll (k : AlertKind) (hs : P s) : P (s.lowerAll k) :=
  foldl_keeps _ (fun _ _ hs => h.lower _ _ hs) _ _ hs

theorem frameError (l : Link) (hs : P s) : P (s.frameError l) := h.raiseEvent _ _ hs
theorem reply (k : Nat) (tag : Byte) (st : Status) (r : List Byte) (hs : P s) : P (s.reply k tag st r) :=
  h.offerSite _ hs
theorem replyRefused (k : Nat) (tag : Byte) (why : Reason) (r : List Byte) (hs : P s) :
    P (s.replyRefused k tag why r) := h.offerSite _ hs
theorem offerBlocked (f : Frame) (why : BlockReason) (stage : Nat) (hs : P s) : P (s.offerBlocked f why stage) :=
  h.offerNotice _ hs

end KeepsReports

/-! ### What a report leaves -/

theorem Reported.rfl' (s : State) : Reported s s := by constructor <;> rfl

theorem Reported.trans {s t u : State} (a : Reported s t) (b : Reported t u) : Reported s u := by
  obtain ⟨a1, a2, a3, a4, a5, a6, a7, a8, a9, a10, a11, a12, a13, a14, a15, a16, a17⟩ := a
  obtain ⟨b1, b2, b3, b4, b5, b6, b7, b8, b9, b10, b11, b12, b13, b14, b15, b16, b17⟩ := b
  constructor
  · rw [b1, a1]
  · rw [b2, a2]
  · rw [b3, a3]
  · rw [b4, a4]
  · rw [b5, a5]
  · rw [b6, a6]
  · rw [b7, a7]
  · rw [b8, a8]
  · rw [b9, a9]
  · rw [b10, a10]
  · rw [b11, a11]
  · rw [b12, a12]
  · rw [b13, a13]
  · rw [b14, a14]
  · rw [b15, a15]
  · rw [b16, a16]
  · rw [b17, a17]

theorem siteEnqueue_reported (s : State) (f : SiteItem) : Reported s (s.siteEnqueue f) := by
  unfold State.siteEnqueue State.siteStart
  split <;> constructor <;> rfl

theorem latchRecord_reported (s : State) (k : AlertKind) (src : Nat) : Reported s (s.latchRecord k src) := by
  unfold State.latchRecord
  constructor <;> simp

theorem pulseLatch_reported (s : State) : Reported s s.pulseLatch := by
  unfold State.pulseLatch
  split
  · exact Reported.rfl' s
  · split <;> constructor <;> simp

theorem recomputeHeld_reported (s : State) : Reported s s.recomputeHeld := by constructor <;> rfl

theorem setPresent_reported (s : State) (k : AlertKind) (p : List Nat) :
    Reported s ((s.setPresent k p).heldAfter k) := by
  have h1 : Reported s (s.setPresent k p) := by unfold State.setPresent; constructor <;> simp
  unfold State.heldAfter
  split
  · exact h1.trans (recomputeHeld_reported _)
  · exact h1

/-- Every report leaves what `Reported` lists. -/
theorem reported_keeps (s : State) : KeepsReports (Reported s) where
  enqueue := fun t f ht _ => ht.trans (siteEnqueue_reported t f)
  record := fun t k src ht => ht.trans (latchRecord_reported t k src)
  pulse := fun t ht => ht.trans (pulseLatch_reported t)
  present := fun t k p ht => ht.trans (setPresent_reported t k p)

theorem offerSite_reported (s : State) (f : SiteItem) : Reported s (s.offerSite f) :=
  (reported_keeps s).offerSite f (Reported.rfl' s)
theorem offerNotice_reported (s : State) (p : List Byte) : Reported s (s.offerNotice p) := offerSite_reported s _
theorem raiseEvent_reported (s : State) (k : AlertKind) (src : Nat) : Reported s (s.raiseEvent k src) :=
  (reported_keeps s).raiseEvent k src (Reported.rfl' s)
theorem raiseCondition_reported (s : State) (k : AlertKind) (src : Nat) : Reported s (s.raiseCondition k src) :=
  (reported_keeps s).raiseCondition k src (Reported.rfl' s)
theorem lower_reported (s : State) (k : AlertKind) (src : Nat) : Reported s (s.lower k src) :=
  (reported_keeps s).lower k src (Reported.rfl' s)
theorem reply_reported (s : State) (k : Nat) (tag : Byte) (st : Status) (r : List Byte) :
    Reported s (s.reply k tag st r) := offerSite_reported s _
theorem replyRefused_reported (s : State) (k : Nat) (tag : Byte) (why : Reason) (r : List Byte) :
    Reported s (s.replyRefused k tag why r) := offerSite_reported s _

end Sys2Proof.Machine
end

