-- ==== Sys2Proof/Laws/Alerts.lean ====
section
/-!
SUPPORT. What raises and lowers do to the alert table and to what the site station receives: which sources are present
after each, that masks stay and latches are only set, and that the frames they add are ALERT notices.
-/
namespace Sys2Proof.Machine

/-- An ALERT notice waiting for the site station. -/
def SiteItem.isAlert (x : SiteItem) : Prop := x.tag = .notice ∧ x.frame.payload.head? = some 0

/-- `t` follows from `s` by raises and lowers, as far as masks, latches and the frames for the site station go. -/
structure AlertsPass (s t : State) : Prop where
  masked : ∀ j, (t.alertRec j).masked = (s.alertRec j).masked
  latched : ∀ j, (s.alertRec j).latched = true → (t.alertRec j).latched = true
  output : ∃ offered, t.siteOutput = s.siteOutput ++ offered ∧ ∀ x ∈ offered, x.isAlert

theorem AlertsPass.rfl' (s : State) : AlertsPass s s := ⟨fun _ => rfl, fun _ h => h, [], by simp, by simp⟩

theorem AlertsPass.trans {s t u : State} (a : AlertsPass s t) (b : AlertsPass t u) : AlertsPass s u where
  masked j := (b.masked j).trans (a.masked j)
  latched j h := b.latched j (a.latched j h)
  output := by
    obtain ⟨x, hx, hx'⟩ := a.output
    obtain ⟨y, hy, hy'⟩ := b.output
    refine ⟨x ++ y, by rw [hy, hx, List.append_assoc], fun i hi => ?_⟩
    exact (List.mem_append.1 hi).elim (hx' i) (hy' i)

/-- The same alert table and the same frames for the site station. -/
theorem AlertsPass.same {s t : State} (ha : t.alb.alerts = s.alb.alerts) (hs : t.slp = s.slp) : AlertsPass s t where
  masked j := by simp only [State.alertRec, ha]
  latched j h := by simpa only [State.alertRec, ha] using h
  output := ⟨[], by simp [State.siteOutput, hs], by simp⟩

theorem AlertKind.code_inj {j k : AlertKind} (h : j.code = k.code) : j = k := by
  revert h; cases j <;> cases k <;> first | (intro; rfl) | (intro h; cases h)

/-- A frame that joins the site queue is the last the site station receives (R5). -/
theorem siteOutput_siteEnqueue (s : State) (f : SiteItem) : (s.siteEnqueue f).siteOutput = s.siteOutput ++ [f] := by
  unfold State.siteEnqueue State.siteStart State.siteOutput
  cases h : s.slp.tx <;> cases h2 : s.slp.queue <;> simp [h]

theorem alb_siteEnqueue (s : State) (f : SiteItem) : (s.siteEnqueue f).alb = s.alb := by
  unfold State.siteEnqueue State.siteStart
  split <;> rfl

theorem alb_pulseLatch (s : State) : s.pulseLatch.alb = s.alb ∧ s.pulseLatch.slp = s.slp := by
  unfold State.pulseLatch
  repeat' split
  all_goals exact ⟨rfl, rfl⟩

/-! ### What a latch leaves -/

/-- A latch changes no set of present sources, and what `AlertsPass` allows. -/
structure LatchesOnly (s t : State) : Prop extends AlertsPass s t where
  present : ∀ j, (t.alertRec j).present = (s.alertRec j).present

theorem LatchesOnly.trans {s t u : State} (a : LatchesOnly s t) (b : LatchesOnly t u) : LatchesOnly s u :=
  ⟨a.toAlertsPass.trans b.toAlertsPass, fun j => (b.present j).trans (a.present j)⟩

theorem latchRecord_latches (s : State) (k : AlertKind) (src : Nat) : LatchesOnly s (s.latchRecord k src) where
  masked j := by simp only [State.latchRecord, State.alertRec_setAlertRec]; split <;> simp_all
  latched j h := by simp only [State.latchRecord, State.alertRec_setAlertRec]; split <;> simp_all
  output := ⟨[], by simp [State.siteOutput, State.latchRecord, State.setAlertRec], by simp⟩
  present j := by simp only [State.latchRecord, State.alertRec_setAlertRec]; split <;> simp_all

theorem siteEnqueue_latches (s : State) (f : SiteItem) (hf : f.isAlert) : LatchesOnly s (s.siteEnqueue f) where
  masked j := by simp only [State.alertRec, alb_siteEnqueue]
  latched j h := by simpa only [State.alertRec, alb_siteEnqueue] using h
  output := ⟨[f], siteOutput_siteEnqueue s f, by simpa using hf⟩
  present j := by simp only [State.alertRec, alb_siteEnqueue]

theorem pulseLatch_latches (s : State) : LatchesOnly s s.pulseLatch where
  toAlertsPass := AlertsPass.same (by rw [(alb_pulseLatch s).1]) (alb_pulseLatch s).2
  present j := by simp only [State.alertRec, (alb_pulseLatch s).1]

theorem LatchesOnly.rfl' (s : State) : LatchesOnly s s := ⟨AlertsPass.rfl' s, fun _ => rfl⟩

theorem alertNotice_isAlert (s u : State) (k : AlertKind) (src : Nat) : (u.noticeItem (s.alertNotice k src)).isAlert :=
  ⟨rfl, rfl⟩

theorem raiseCongestion_latches (s : State) (l : Link) : LatchesOnly s (s.raiseCongestion l) := by
  unfold State.raiseCongestion
  dsimp only
  have h := latchRecord_latches s .congestion l.source
  split
  · exact h
  · refine h.trans (LatchesOnly.trans ?_ (pulseLatch_latches _))
    unfold State.offerQuiet
    split
    · exact LatchesOnly.rfl' _
    · exact siteEnqueue_latches _ _ (alertNotice_isAlert _ _ _ _)

/-- A latch of a kind (R161): no present source moves, and every frame it adds is an ALERT notice. -/
theorem latch_latches (s : State) (k : AlertKind) (src : Nat) : LatchesOnly s (s.latch k src) := by
  unfold State.latch
  dsimp only
  have h := latchRecord_latches s k src
  split
  · exact h
  · refine h.trans (LatchesOnly.trans ?_ (pulseLatch_latches _))
    unfold State.offerNotice State.offerSite
    split
    · exact raiseCongestion_latches _ _
    · exact siteEnqueue_latches _ _ (alertNotice_isAlert _ _ _ _)

/-! ### Raises and lowers -/

theorem setPresent_passes (s : State) (k : AlertKind) (p : List Nat) :
    AlertsPass s ((s.setPresent k p).heldAfter k)
      ∧ ∀ j, (((s.setPresent k p).heldAfter k).alertRec j).present = if j = k.code then p else (s.alertRec j).present := by
  have e : ∀ j, (((s.setPresent k p).heldAfter k).alertRec j) = (s.setPresent k p).alertRec j := by
    intro j; unfold State.heldAfter; split <;> rfl
  have f : ((s.setPresent k p).heldAfter k).slp = s.slp := by unfold State.heldAfter; split <;> rfl
  refine ⟨⟨fun j => ?_, fun j h => ?_, [], by simp [State.siteOutput, f], by simp⟩, fun j => ?_⟩ <;> rw [e] <;>
    simp only [State.setPresent, State.alertRec_setAlertRec] <;> split <;> simp_all

/-- A raise of a condition kind adds its source to the kind's present sources and moves no other (R160). -/
theorem raiseCondition_spec (s : State) (k : AlertKind) (src : Nat) :
    AlertsPass s (s.raiseCondition k src)
      ∧ ∀ j x, x ∈ ((s.raiseCondition k src).alertRec j).present
          ↔ x ∈ (s.alertRec j).present ∨ (j = k.code ∧ x = src) := by
  unfold State.raiseCondition
  dsimp only
  split
  · rename_i h
    exact ⟨AlertsPass.rfl' s, fun j x => ⟨Or.inl, fun hx => hx.elim id (fun ⟨a, b⟩ => by subst a b; exact h)⟩⟩
  · obtain ⟨a, b⟩ := setPresent_passes s k (insertSorted (s.alertRec k.code).present src)
    have c := latch_latches ((s.setPresent k (insertSorted (s.alertRec k.code).present src)).heldAfter k) k src
    refine ⟨a.trans c.toAlertsPass, fun j x => ?_⟩
    rw [c.present, b]
    by_cases hj : j = k.code
    · subst hj; simp [or_comm]
    · simp [hj]

/-- A lower takes its source out of the kind's present sources, moves no other and adds no frame (R160). -/
theorem lower_spec (s : State) (k : AlertKind) (src : Nat) :
    (AlertsPass s (s.lower k src) ∧ (s.lower k src).slp = s.slp)
      ∧ ∀ j x, x ∈ ((s.lower k src).alertRec j).present
          ↔ x ∈ (s.alertRec j).present ∧ ¬ (j = k.code ∧ x = src) := by
  unfold State.lower
  dsimp only
  split
  · obtain ⟨a, b⟩ := setPresent_passes s k (eraseNat (s.alertRec k.code).present src)
    refine ⟨⟨a, by unfold State.heldAfter; split <;> rfl⟩, fun j x => ?_⟩
    rw [b]
    by_cases hj : j = k.code
    · subst hj; simp
    · simp [hj]
  · rename_i h
    exact ⟨⟨AlertsPass.rfl' s, rfl⟩, fun j x => ⟨fun hx => ⟨hx, fun ⟨a, b⟩ => h (by subst a b; exact hx)⟩, fun hx => hx.1⟩⟩

/-- Lowers of one kind for several sources (R160). -/
theorem foldl_lower_spec (k : AlertKind) (l : List Nat) : ∀ s : State,
    (AlertsPass s (l.foldl (fun u x => u.lower k x) s) ∧ (l.foldl (fun u x => u.lower k x) s).slp = s.slp)
      ∧ ∀ j x, x ∈ ((l.foldl (fun u x => u.lower k x) s).alertRec j).present
          ↔ x ∈ (s.alertRec j).present ∧ ¬ (j = k.code ∧ x ∈ l) := by
  induction l with
  | nil => intro s; exact ⟨⟨AlertsPass.rfl' s, rfl⟩, by simp⟩
  | cons a l ih =>
    intro s
    obtain ⟨⟨h1, h2⟩, h3⟩ := lower_spec s k a
    obtain ⟨⟨h4, h5⟩, h6⟩ := ih (s.lower k a)
    refine ⟨⟨h1.trans h4, h5.trans h2⟩, fun j x => ?_⟩
    rw [List.foldl_cons, h6, h3, List.mem_cons]
    constructor
    · rintro ⟨⟨p, q⟩, r⟩; exact ⟨p, fun ⟨u, v⟩ => v.elim (fun v => q ⟨u, v⟩) (fun v => r ⟨u, v⟩)⟩
    · rintro ⟨p, q⟩; exact ⟨⟨p, fun ⟨u, v⟩ => q ⟨u, .inl v⟩⟩, fun ⟨u, v⟩ => q ⟨u, .inr v⟩⟩

/-- A lower of a kind for every source leaves it none, and moves no other kind (R160). -/
theorem lowerAll_spec (s : State) (k : AlertKind) :
    (AlertsPass s (s.lowerAll k) ∧ (s.lowerAll k).slp = s.slp)
      ∧ ∀ j x, x ∈ ((s.lowerAll k).alertRec j).present ↔ x ∈ (s.alertRec j).present ∧ j ≠ k.code := by
  obtain ⟨h1, h2⟩ := foldl_lower_spec k (s.alertRec k.code).present s
  refine ⟨h1, fun j x => ?_⟩
  show x ∈ ((List.foldl _ s _).alertRec j).present ↔ _
  rw [h2]
  constructor
  · rintro ⟨p, q⟩; exact ⟨p, fun e => q ⟨e, e ▸ p⟩⟩
  · rintro ⟨p, q⟩; exact ⟨p, fun ⟨u, _⟩ => q u⟩

end Sys2Proof.Machine
end

