-- ==== Sys2Proof/Laws/Segment.lean ====
section
/-!
SUPPORT. Everything the gate, the field queues and the arbiter of Machine/Gate.lean can do to the state, said once: a
property kept by the updates of `KeepsField` is kept by each of them. `Sent` says what they leave.
-/
namespace Sys2Proof.Machine

/-- The updates a frame bound for the field can make; a RELEASE frame is queued at one place alone (R88), which
`KeepsRelease` covers. -/
structure KeepsField (P : State → Prop) : Prop extends KeepsReports P where
  urgent : ∀ s f, P s → f.kind ≠ Kind.release →
    P { s with fsp := { s.fsp with urgent := State.urgentPut s.fsp.urgent f } }
  takeUrgent : ∀ s f rest, P s → s.fsp.urgent = f :: rest →
    P { s with fsp := { s.fsp with urgent := rest, segment := .sending (.urgent f) } }
  ordinary : ∀ s it, P s → s.fsp.ordinary.length < Config.ordinaryCapacity →
    P { s with fsp := { s.fsp with ordinary := s.fsp.ordinary ++ [it] } }
  dropOrdinary : ∀ s l, P s → l <:+ s.fsp.ordinary → P { s with fsp := { s.fsp with ordinary := l } }
  sendOrdinary : ∀ s it, P s →
    P { s with fsp := { s.fsp with segment := .sending (.ordinary it), lastNonUrgent := .ordinary } }
  poll : ∀ s i (e : StationEntry), P s → s.nextPoll = some (i, e) →
    P { s with fsp := { s.fsp with
      segment := .sending (.poll i ⟨e.addr, s.mga.live.ownAddress, Kind.poll, []⟩)
      pollPos := some i
      lastNonUrgent := .poll } }
  idle : ∀ s, P s → P (s.setSegment .idle)
  manual : ∀ s h, P s → P (s.setHatchRuntime h { s.hatchRuntime h with manual := true, moved := false })
  unlockRef : ∀ s h, P s → P (s.setHatchRuntime h { s.hatchRuntime h with unlockRef := none })

/-- The test of a frame leaves the field segment. -/
theorem sendTest_fsp (s : State) (it : OrdItem) : (s.sendTest it).2.fsp = s.fsp := by
  unfold State.sendTest
  split
  · unfold State.sendTestSite
    split
    · split
      · exact (offerNotice_reported s _).fsp
      · simp only [State.setManual]
        split
        · split <;> simp
        · rfl
    · rfl
  · rfl
  · unfold State.sendTestUnlock
    split
    · split <;> simp
    · rfl
  · rfl
  · rfl

namespace KeepsField

variable {P : State → Prop} (h : KeepsField P) {s : State}
include h

theorem setManual (f : Frame) (hs : P s) : P (s.setManual f) := by
  unfold State.setManual
  split
  · split
    · exact h.manual _ _ hs
    · exact hs
  · exact hs

theorem sendTest (it : OrdItem) (hs : P s) : P (s.sendTest it).2 := by
  unfold State.sendTest
  split
  · unfold State.sendTestSite
    split
    · split
      · exact h.offerBlocked _ _ _ hs
      · exact h.setManual _ hs
    · exact hs
  · exact hs
  · unfold State.sendTestUnlock
    split
    · split
      · exact h.unlockRef _ _ hs
      · exact hs
    · exact hs
  · exact hs
  · exact hs

theorem choosePoll (hs : P s) : P s.choosePoll := by
  unfold State.choosePoll
  split
  · rename_i i e hp; exact h.poll s i e hs hp
  · exact h.idle _ hs

theorem takeOrdinary (l : List OrdItem) : ∀ s, P s → l <:+ s.fsp.ordinary → P (State.takeOrdinary l s) := by
  induction l with
  | nil => intro s hs _; exact h.choosePoll (h.dropOrdinary s [] hs (List.nil_suffix))
  | cons it rest ih =>
    intro s hs hl
    have h1 := h.dropOrdinary s rest hs ((List.suffix_cons it rest).trans hl)
    unfold State.takeOrdinary
    dsimp only
    have h2 := h.sendTest it h1
    have h3 := sendTest_fsp { s with fsp := { s.fsp with ordinary := rest } } it
    split
    · rename_i s2 heq
      rw [heq] at h2
      exact h.sendOrdinary _ _ h2
    · rename_i s2 heq
      rw [heq] at h2 h3
      exact ih _ h2 (h3 ▸ List.suffix_refl _)

theorem arbitrate (hs : P s) : P s.arbitrate := by
  unfold State.arbitrate
  split
  · rename_i f rest hu; exact h.takeUrgent s f rest hs hu
  · split
    · exact h.takeOrdinary _ _ hs (List.suffix_refl _)
    · exact h.choosePoll hs

theorem arbitrateIfIdle (hs : P s) : P s.arbitrateIfIdle := by
  unfold State.arbitrateIfIdle
  split
  · exact h.arbitrate hs
  · exact hs

theorem queueUrgent (dst kind : Nat) (p : List Byte) (hk : kind ≠ Kind.release) (hs : P s) :
    P (s.queueUrgent dst kind p) := h.arbitrateIfIdle (h.urgent _ _ hs hk)

theorem offerOrdinary (it : OrdItem) (hs : P s) : P (s.offerOrdinary it) := by
  unfold State.offerOrdinary
  split
  · exact h.raiseCongestion _ hs
  · rename_i hl; exact h.arbitrateIfIdle (h.ordinary _ _ hs (by omega))

theorem originate (o : Origin) (dst kind : Nat) (p : List Byte) (hs : P s) : P (s.originate o dst kind p) :=
  h.offerOrdinary _ hs

theorem queueUrgentAll (dsts : List Nat) (kind : Nat) (p : List Byte) (hk : kind ≠ Kind.release) (hs : P s) :
    P (s.queueUrgentAll dsts kind p) :=
  foldl_keeps _ (fun _ _ hs => h.queueUrgent _ _ _ hk hs) _ _ hs

theorem originateAll (o : Origin) (dsts : List Nat) (kind : Nat) (p : List Byte) (hs : P s) :
    P (s.originateAll o dsts kind p) :=
  foldl_keeps _ (fun _ _ hs => h.originate _ _ _ _ hs) _ _ hs

theorem answer (o : Origin) (dst : Nat) (step : Byte) (ref : List Byte) (out : Outcome) (hs : P s) :
    P (s.answer o dst step ref out) := h.originate _ _ _ _ hs

end KeepsField

/-! ### What sending leaves -/

theorem Sent.rfl' (s : State) : Sent s s := by constructor <;> (try intro) <;> rfl

theorem Sent.trans {s t u : State} (a : Sent s t) (b : Sent t u) : Sent s u where
  rx := b.rx.trans a.rx
  fieldRx := b.fieldRx.trans a.fieldRx
  rxInWindow := b.rxInWindow.trans a.rxInWindow
  cgt := b.cgt.trans a.cgt
  secondCount := b.secondCount.trans a.secondCount
  minuteClock := b.minuteClock.trans a.minuteClock
  release := b.release.trans a.release
  step := b.step.trans a.step
  dwell := b.dwell.trans a.dwell
  supervision := b.supervision.trans a.supervision
  retry := b.retry.trans a.retry
  cls := b.cls.trans a.cls
  frs := b.frs.trans a.frs
  csu := b.csu.trans a.csu
  hatches := b.hatches.trans a.hatches
  consignments := b.consignments.trans a.consignments
  position := fun h => (b.position h).trans (a.position h)
  unitSilent := fun h => (b.unitSilent h).trans (a.unitSilent h)
  dwellDone := fun h => (b.dwellDone h).trans (a.dwellDone h)
  urgency := fun h => (b.urgency h).trans (a.urgency h)
  mga := b.mga.trans a.mga
  handed := b.handed.trans a.handed
  pending := b.pending.trans a.pending

theorem Reported.sent {s t : State} (a : Reported s t) : Sent s t where
  rx := a.rx
  fieldRx := by rw [a.fsp]
  rxInWindow := by rw [a.fsp]
  cgt := a.cgt
  secondCount := a.secondCount
  minuteClock := a.minuteClock
  release := a.release
  step := a.step
  dwell := a.dwell
  supervision := a.supervision
  retry := a.retry
  cls := a.cls
  frs := a.frs
  csu := a.csu
  hatches := by rw [a.hoc]
  consignments := by rw [a.hoc]
  position := fun h => by simp only [State.hatchRuntime, a.hoc]
  unitSilent := fun h => by simp only [State.hatchRuntime, a.hoc]
  dwellDone := fun h => by simp only [State.hatchRuntime, a.hoc]
  urgency := fun h => by simp only [State.hatchRuntime, a.hoc]
  mga := a.mga
  handed := a.handed
  pending := a.pending

/-- A hatch runtime record that keeps position, silence, dwell and urgency is one `Sent` allows. -/
theorem setHatchRuntime_sent (s : State) (h : Nat) (r : HatchRuntime) (h1 : r.position = (s.hatchRuntime h).position)
    (h2 : r.unitSilent = (s.hatchRuntime h).unitSilent) (h3 : r.dwellDone = (s.hatchRuntime h).dwellDone)
    (h4 : r.urgent = (s.hatchRuntime h).urgent) : Sent s (s.setHatchRuntime h r) := by
  constructor
  case position | unitSilent | dwellDone | urgency =>
    intro j
    simp only [State.hatchRuntime_setHatchRuntime]
    split
    · rename_i hj; subst hj; assumption
    · rfl
  all_goals simp

/-- An update of the field segment alone, its received bytes kept, is one `Sent` allows. -/
theorem fsp_sent (s : State) (f : Fsp) (h1 : f.rx = s.fsp.rx) (h2 : f.rxInWindow = s.fsp.rxInWindow) :
    Sent s { s with fsp := f } := by
  constructor
  case fieldRx => exact h1
  case rxInWindow => exact h2
  all_goals (try intro); rfl

/-- Everything sent to the field leaves what `Sent` lists. -/
theorem sent_keeps (s : State) : KeepsField (Sent s) where
  enqueue := fun t f ht _ => ht.trans (siteEnqueue_reported t f).sent
  record := fun t k src ht => ht.trans (latchRecord_reported t k src).sent
  pulse := fun t ht => ht.trans (pulseLatch_reported t).sent
  present := fun t k p ht => ht.trans (setPresent_reported t k p).sent
  urgent := fun t _ ht _ => ht.trans (fsp_sent t _ rfl rfl)
  takeUrgent := fun t _ _ ht _ => ht.trans (fsp_sent t _ rfl rfl)
  ordinary := fun t _ ht _ => ht.trans (fsp_sent t _ rfl rfl)
  dropOrdinary := fun t _ ht _ => ht.trans (fsp_sent t _ rfl rfl)
  sendOrdinary := fun t _ ht => ht.trans (fsp_sent t _ rfl rfl)
  poll := fun t _ _ ht _ => ht.trans (fsp_sent t _ rfl rfl)
  idle := fun t ht => ht.trans (fsp_sent t _ rfl rfl)
  manual := fun t h ht => ht.trans (setHatchRuntime_sent t h _ rfl rfl rfl rfl)
  unlockRef := fun t h ht => ht.trans (setHatchRuntime_sent t h _ rfl rfl rfl rfl)

theorem arbitrate_sent (s : State) : Sent s s.arbitrate := (sent_keeps s).arbitrate (Sent.rfl' s)
theorem queueUrgent_sent (s : State) (dst kind : Nat) (p : List Byte) : Sent s (s.queueUrgent dst kind p) :=
  (sent_keeps s).arbitrateIfIdle (fsp_sent s _ rfl rfl)
theorem queueUrgentAll_sent (s : State) (dsts : List Nat) (kind : Nat) (p : List Byte) :
    Sent s (s.queueUrgentAll dsts kind p) :=
  foldl_keeps _ (fun t d ht => ht.trans (queueUrgent_sent t d kind p)) dsts s (Sent.rfl' s)
theorem offerOrdinary_sent (s : State) (it : OrdItem) : Sent s (s.offerOrdinary it) :=
  (sent_keeps s).offerOrdinary it (Sent.rfl' s)
theorem originateAll_sent (s : State) (o : Origin) (dsts : List Nat) (kind : Nat) (p : List Byte) :
    Sent s (s.originateAll o dsts kind p) := (sent_keeps s).originateAll o dsts kind p (Sent.rfl' s)
theorem answer_sent (s : State) (o : Origin) (dst : Nat) (step : Byte) (ref : List Byte) (out : Outcome) :
    Sent s (s.answer o dst step ref out) := (sent_keeps s).answer o dst step ref out (Sent.rfl' s)

end Sys2Proof.Machine
end

