-- ==== Sys2Proof/Laws/Keeps.lean ====
section
/-!
SUPPORT. Everything a command can do to the state, said once: `KeepsJobs P` and `Keeps P` list the updates the meanings
make, with what is known where each is made; a property kept by those of `KeepsJobs` is kept by every operation of a job
block, and one kept by all of them by every command (`Keeps.exec`, in Laws/Steps.lean).
This file covers the job blocks.
-/
namespace Sys2Proof.Machine

/-- How the missed count and the SILENT mark of a station change (R12). -/
def RuntimeStep (old new : StationRuntime) : Prop :=
  (new.missed = old.missed + 1 ∧ old.missed + 1 < 3 ∧ new.silent = old.silent)
    ∨ (new.missed = 3 ∧ new.silent = true) ∨ (new.missed = 0 ∧ new.silent = false)
    ∨ (new.missed = old.missed ∧ new.silent = old.silent)

/-- The updates the job blocks make, and those of a station's missed count and of the minute scan. -/
structure KeepsJobs (P : State → Prop) : Prop extends KeepsField P where
  hand : ∀ s c, P s → P (s.hand c)
  takeHanded : ∀ s c, P s → P (s.takeHanded c)
  runtime : ∀ s i r, P s → RuntimeStep (s.stationRuntime i) r → P (s.setStationRuntime i r)
  clearRuntime : ∀ s, P s → P { s with cgt := { s.cgt with runtime := [] } }
  zone : ∀ s i e, P s → P (s.setZone i e)
  probeState : ∀ s i e, P s → P (s.setProbeState i e)
  clearProbes : ∀ s, P s → P { s with cls := { s.cls with probeState := [] } }
  climate : ∀ s z c, P s → (c.exposure ≤ 65535 ∨ c.exposure = (s.climate z).exposure) → P (s.setClimate z c)
  inputStage : ∀ s i e, P s → P (s.setInputStage i e)
  fire : ∀ s z e, P s → P (s.setFire z e)
  clearFire : ∀ s, P s → P { s with frs := { s.frs with stages := [], fire := [] } }
  media : ∀ s i e, P s → P (s.setMedia i e)
  scan : ∀ s r, P s → P (s.setScan r)
  sweep : ∀ s r, P s → P (s.setSweep r)
  hatchRuntime : ∀ s i e, P s → P (s.setHatchRuntime i e)
  clearHatches : ∀ s, P s → P { s with hoc := { s.hoc with runtime := [] } }
  setConsignment : ∀ s c, P s → P (s.setConsignment c)
  addConsignment : ∀ s c, P s → s.hoc.consignments.length < Config.consignmentCount → P (s.addConsignment c)
  dropConsignment : ∀ s n, P s → P (s.dropConsignment n)
  releaseTimer : ∀ s i t, P s → P (s.setReleaseTimer i t)
  stepTimer : ∀ s i t, P s → P (s.setStepTimer i t)
  dwellTimer : ∀ s i t, P s → P (s.setDwellTimer i t)
  supervision : ∀ s t, P s → P (s.setSupervision t)
  retry : ∀ s t, P s → P (s.setRetry t)

/-- The updates the meanings make: those of the job blocks, the ports, the time base and the Management Agent. -/
structure Keeps (P : State → Prop) : Prop extends KeepsJobs P where
  siteRx : ∀ s rx, P s → P { s with slp := { s.slp with rx := rx } }
  txDone : ∀ s, P s → P (State.siteStart { s with slp := { s.slp with tx := none } })
  fieldRx : ∀ s rx b, P s → P { s with fsp := { s.fsp with rx := rx, rxInWindow := b } }
  window : ∀ s i a b, P s → P (s.setSegment (.awaiting i a b))
  station : ∀ s i e, P s → P (s.setStation i e)
  actuator : ∀ s i e, P s → P (s.setActuator i e)
  probeCal : ∀ s i e, P s → P (s.setProbeCal i e)
  profile : ∀ s i e, P s → P (s.setProfile i e)
  inputKind : ∀ s i e, P s → P (s.setInputKind i e)
  classEntry : ∀ s i e, P s → P (s.setClassEntry i e)
  hatch : ∀ s i e, P s → P (s.setHatch i e)
  endPulse : ∀ s, P s → P s.endPulse
  secondCount : ∀ s n, P s → n < 60 → P (s.setSecondCount n)
  minuteClock : ∀ s m, P s → P { s with tmb := { s.tmb with minuteClock := m } }
  mga : ∀ s m, P s → (∀ i, Figures.get m.burns i = Figures.get s.mga.burns i ∨
      (Figures.get s.mga.burns i < 4 ∧ Figures.get m.burns i = Figures.get s.mga.burns i + 1)) → P (s.setMga m)
  clearAlert : ∀ s k, P s → P (s.clearAlert k)
  masks : ∀ s b (ks : List AlertKind), P s → P (ks.foldl (State.maskAlert b) s).recomputeHeld
  reset : ∀ s, P s → P s.resetPart

namespace KeepsJobs

variable {P : State → Prop} (h : KeepsJobs P) {s : State}
include h

/-! ### Commands around their meaning (Exchange) -/

theorem requestTaken (hs : P s) : P s.requestTaken := by
  unfold State.requestTaken
  split
  · exact h.supervision _ _ hs
  · exact hs

theorem serve (c : Instr) (kind : Nat) (tag : Byte) (act : State → State) (ha : ∀ s, P s → P (act s)) (hs : P s) :
    P (s.serve c kind tag act) := by
  have h1 := h.requestTaken (h.takeHanded s c hs)
  unfold State.serve
  dsimp only
  split
  · exact h1
  · split
    · exact h.reply _ _ _ _ h1
    · exact ha _ h1

theorem take (c : Instr) (e : Nat) (fits : StationEntry → Bool) (act : State → State) (ha : ∀ s, P s → P (act s))
    (hs : P s) : P (s.take c e fits act) := by
  have h1 := h.takeHanded s c hs
  unfold State.take
  dsimp only
  split
  · exact ha _ h1
  · exact h1

theorem takeEvent (c : Instr) (act : State → State) (ha : ∀ s, P s → P (act s)) (hs : P s) :
    P (s.takeEvent c act) := by
  unfold State.takeEvent
  split
  · exact ha _ (h.takeHanded s c hs)
  · exact hs

/-! ### Custody -/

theorem scanReport (e : StationEntry) (p : List Byte) (out : Outcome) (f : Option Nat) (hs : P s) :
    P (s.scanReport e p out f) := h.offerNotice _ (h.answer _ _ _ _ _ hs)

theorem serveTake (e : StationEntry) (p : List Byte) (hs : P s) : P (s.serveTake e p) := by
  unfold State.serveTake
  dsimp only
  apply h.scanReport
  split
  · exact h.media _ _ _ hs
  · exact hs

theorem serveReturn (e : StationEntry) (p : List Byte) (hs : P s) : P (s.serveReturn e p) := by
  unfold State.serveReturn
  dsimp only
  apply h.scanReport
  split
  · exact h.media _ _ _ hs
  · exact hs

theorem beginPass (hs : P s) : P s.beginPass := h.scan _ _ hs

theorem custodyMinute (hs : P s) : P s.custodyMinute := by
  unfold State.custodyMinute
  split
  · split
    · exact h.beginPass hs
    · exact h.scan _ _ hs
  · exact hs

theorem gatherRelease (slot : Nat) (id : Ident) (hs : P s) : P (s.gatherRelease slot id) := by
  unfold State.gatherRelease
  dsimp only
  split
  · exact h.scan _ _ hs
  · exact h.offerNotice _ (h.scan _ _ hs)

theorem scanRecordVisit (slot : Nat) (r : MediaRec) (hs : P s) : P (s.scanRecordVisit slot r) := by
  unfold State.scanRecordVisit
  repeat' split
  all_goals with_reducible first | exact hs | exact h.raiseEvent _ _ (h.media _ _ _ hs) | exact h.gatherRelease _ _ (h.media _ _ _ hs)

theorem endPass (hs : P s) : P s.endPass := by
  unfold State.endPass
  dsimp only
  repeat' split
  all_goals with_reducible first
    | exact h.beginPass hs | exact h.scan _ _ hs | exact h.beginPass (h.offerNotice _ hs)
    | exact h.scan _ _ (h.offerNotice _ hs)

theorem minuteScanVisit (hs : P s) : P s.minuteScanVisit := by
  unfold State.minuteScanVisit
  split
  · exact hs
  · rename_i slot _
    dsimp only
    have h1 : P (match s.mediaAt slot with | some r => s.scanRecordVisit slot r | none => s) := by
      split
      · exact h.scanRecordVisit _ _ hs
      · exact hs
    split
    · exact h.scan _ _ h1
    · exact h.endPass h1

theorem sweepZone (z : Nat) (hs : P s) : P (s.sweepZone z) := by
  unfold State.sweepZone
  dsimp only
  split
  · exact h.sweep _ _ hs
  · split
    · exact hs
    · exact h.sweep _ _ hs

theorem gatherMark (z slot : Nat) (id : Ident) (hs : P s) : P (s.gatherMark z slot id) := by
  unfold State.gatherMark
  dsimp only
  split
  · exact h.sweep _ _ hs
  · exact h.offerNotice _ (h.sweep _ _ hs)

theorem sweepRecordVisit (z slot : Nat) (r : MediaRec) (hs : P s) : P (s.sweepRecordVisit z slot r) := by
  unfold State.sweepRecordVisit
  split
  · exact h.gatherMark _ _ _ (h.media _ _ _ hs)
  · exact hs

theorem endSweep (z : Nat) (hs : P s) : P (s.endSweep z) := by
  unfold State.endSweep
  dsimp only
  split
  · exact h.sweep _ _ (h.offerNotice _ hs)
  · exact h.sweep _ _ (h.offerNotice _ hs)

theorem agentSweepVisit (hs : P s) : P s.agentSweepVisit := by
  unfold State.agentSweepVisit
  split
  · exact hs
  · rename_i z slot _
    dsimp only
    have h1 : P (match s.mediaAt slot with | some r => s.sweepRecordVisit z slot r | none => s) := by
      split
      · exact h.sweepRecordVisit _ _ _ hs
      · exact hs
    split
    · exact h.sweep _ _ h1
    · exact h.endSweep _ h1

theorem itemOp (slot : Nat) (op : ItemOp) (hs : P s) : P (s.itemOp slot op) := by
  unfold State.itemOp
  split
  · exact h.media _ _ _ hs
  · exact hs

theorem mediaEnter (tag : Byte) (id : Ident) (cls home initial : Nat) (hs : P s) :
    P (s.mediaEnter tag id cls home initial) := by
  unfold State.mediaEnter
  repeat' split
  all_goals with_reducible first
    | exact h.reply _ _ _ _ hs | exact h.replyRefused _ _ _ _ hs | exact h.reply _ _ _ _ (h.media _ _ _ hs)

theorem mediaDelete (tag : Byte) (id : Ident) (hs : P s) : P (s.mediaDelete tag id) := by
  unfold State.mediaDelete
  repeat' split
  all_goals with_reducible first
    | exact h.reply _ _ _ _ hs | exact h.replyRefused _ _ _ _ hs | exact h.reply _ _ _ _ (h.media _ _ _ hs)

theorem mediaMove (tag : Byte) (id : Ident) (home : Nat) (hs : P s) : P (s.mediaMove tag id home) := by
  unfold State.mediaMove
  repeat' split
  all_goals with_reducible first
    | exact h.reply _ _ _ _ hs | exact h.replyRefused _ _ _ _ hs | exact h.reply _ _ _ _ (h.media _ _ _ hs)

theorem mediaHoldSet (tag : Byte) (id : Ident) (hold : Nat) (hs : P s) : P (s.mediaHoldSet tag id hold) := by
  unfold State.mediaHoldSet
  dsimp only
  repeat' split
  all_goals with_reducible first
    | exact h.reply _ _ _ _ hs | exact h.replyRefused _ _ _ _ hs | exact h.reply _ _ _ _ (h.media _ _ _ hs)

theorem mediaHoldClear (tag : Byte) (id : Ident) (hold : Nat) (hs : P s) : P (s.mediaHoldClear tag id hold) := by
  unfold State.mediaHoldClear
  dsimp only
  repeat' split
  all_goals with_reducible first
    | exact h.reply _ _ _ _ hs | exact h.replyRefused _ _ _ _ hs | exact h.reply _ _ _ _ (h.media _ _ _ hs)

theorem mediaQuery (tag : Byte) (id : Ident) (hs : P s) : P (s.mediaQuery tag id) := by
  unfold State.mediaQuery
  repeat' split
  all_goals exact h.reply _ _ _ _ hs

/-! ### Climate -/

omit h in
theorem evaluateRecord_exposure (p : Profile) (c : ClimateRec) (vals : List (Nat × Int)) :
    (evaluateRecord p c vals).exposure = c.exposure := by
  unfold evaluateRecord
  dsimp only
  repeat' split
  all_goals rfl

theorem raiseClimate (z : Nat) (st : ClimateState) (hs : P s) : P (s.raiseClimate z st) := by
  unfold State.raiseClimate
  repeat' split
  all_goals with_reducible first | exact hs | exact h.raiseCondition _ _ hs

theorem lowerClimate (z : Nat) (st : ClimateState) (hs : P s) : P (s.lowerClimate z st) := by
  unfold State.lowerClimate
  split
  · exact h.lower _ _ hs
  · exact hs

theorem driveAll (dsts : List Nat) (on : Bool) (hs : P s) : P (s.driveAll dsts on) := h.originateAll _ _ _ _ hs

theorem computeFallback (z : Nat) (hs : P s) : P (s.computeFallback z) := by
  unfold State.computeFallback
  split
  · exact h.driveAll _ _ (h.driveAll _ _ (h.climate _ _ _ hs (Or.inr rfl)))
  · exact hs

theorem reportClimate (z : Nat) (a b : ClimateState) (hs : P s) : P (s.reportClimate z a b) := by
  unfold State.reportClimate
  split
  · exact hs
  · exact h.raiseClimate _ _ (h.lowerClimate _ _ (h.offerNotice _ hs))

theorem evaluateClimate (z : Nat) (hs : P s) : P (s.evaluateClimate z) := by
  have h1 := h.hand _ (.zoneReport z .evaluated) (h.reportClimate z (s.climate z).state
    (evaluateRecord (s.zoneProfile z) (s.climate z) (s.validValues z)).state
    (h.climate s z _ hs (Or.inr (evaluateRecord_exposure (s.zoneProfile z) (s.climate z) (s.validValues z)))))
  unfold State.evaluateClimate
  dsimp only
  split
  · exact h.computeFallback _ h1
  · exact h1

theorem evaluateClimateOf (z : Option Nat) (hs : P s) : P (s.evaluateClimateOf z) := by
  unfold State.evaluateClimateOf
  split
  · exact h.evaluateClimate _ hs
  · exact hs

theorem takeSample (e : StationEntry) (p : List Byte) (hs : P s) : P (s.takeSample e p) := by
  unfold State.takeSample
  dsimp only
  split
  · split
    · exact hs
    · exact h.evaluateClimateOf _ (h.raiseCondition _ _ (h.probeState _ _ _ hs))
  · split
    · exact h.evaluateClimateOf _ (h.lower _ _ (h.probeState _ _ _ hs))
    · exact h.evaluateClimateOf _ (h.probeState _ _ _ hs)

theorem probeSilent (e : StationEntry) (hs : P s) : P (s.probeSilent e) := by
  unfold State.probeSilent
  dsimp only
  split
  · exact h.evaluateClimateOf _ (h.lower _ _ (h.probeState _ _ _ hs))
  · exact h.evaluateClimateOf _ (h.probeState _ _ _ hs)

theorem testExposed (z : Nat) (hs : P s) : P (s.testExposed z) := by
  unfold State.testExposed
  dsimp only
  split
  · exact h.raiseCondition _ _ (h.climate _ _ _ hs (Or.inr rfl))
  · exact hs

theorem exposeZone (z : Nat) (hs : P s) : P (s.exposeZone z) := by
  unfold State.exposeZone
  dsimp only
  split
  · exact h.testExposed _ (h.climate _ _ _ hs (Or.inl (Nat.min_le_right _ _)))
  · exact h.testExposed _ (h.climate _ _ _ hs (Or.inl (Nat.min_le_right _ _)))
  · exact hs

theorem climateMinute (hs : P s) : P s.climateMinute := by
  unfold State.climateMinute
  split
  · exact foldl_keeps _ (fun _ _ hs => h.exposeZone _ hs) _ _ hs
  · exact hs

theorem commandsOff (z : Nat) (hs : P s) : P (s.commandsOff z) := h.climate _ _ _ hs (Or.inr rfl)

theorem beginFallback (hs : P s) : P s.beginFallback :=
  foldl_keeps _ (fun _ _ hs => h.computeFallback _ hs) _ _
    (h.retry _ _ (foldl_keeps _ (fun _ _ hs => h.commandsOff _ hs) _ _ hs))

theorem endFallback (hs : P s) : P s.endFallback := h.retry _ _ hs

theorem visitActuator (v : FallbackVisit) (hs : P s) : P (s.visitActuator v) := by
  unfold State.visitActuator
  split
  · exact h.raiseEvent _ _ hs
  · exact h.originate _ _ _ _ hs

theorem retryVisit (hs : P s) : P s.retryVisit := by
  have h1 : P ((offBeforeOn s.fallbackVisits).foldl State.visitActuator s) :=
    foldl_keeps _ (fun _ v hs => h.visitActuator v hs) _ _ hs
  unfold State.retryVisit
  dsimp only
  split
  · exact h.retry _ _ h1
  · exact h1

theorem retryExpired (hs : P s) : P s.retryExpired := by
  unfold State.retryExpired
  split
  · exact h.retryVisit hs
  · exact h.retry _ _ hs

theorem lowerAllOf (ks : List AlertKind) (hs : P s) : P (ks.foldl State.lowerAll s) :=
  foldl_keeps _ (fun _ _ hs => h.lowerAll _ hs) _ _ hs

theorem restartClimate (hs : P s) : P s.restartClimate := by
  unfold State.restartClimate
  refine foldl_keeps _ (fun s z hs => ?_) _ _ (h.clearProbes _ (h.lowerAll _ hs))
  exact h.climate s z _ hs (Or.inr rfl)

theorem activateClimate (hs : P s) : P s.activateClimate :=
  foldl_keeps _ (fun _ _ hs => h.testExposed _ hs) _ _
    (foldl_keeps _ (fun _ _ hs => h.raiseClimate _ _ hs) _ _ (h.restartClimate hs))

theorem deactivateClimate (hs : P s) : P s.deactivateClimate :=
  h.lowerAll _ (h.lowerAll _ (h.lowerAll _ (h.lowerAll _ (h.restartClimate hs))))

theorem zoneProfileRequest (tag : Byte) (z p : Nat) (hs : P s) : P (s.zoneProfileRequest tag z p) := by
  unfold State.zoneProfileRequest
  dsimp only
  split
  · exact h.reply _ _ _ _ hs
  · split
    · exact h.reply _ _ _ _ (h.evaluateClimate _ (h.climate _ _ _ (h.zone _ _ _ hs) (Or.inr rfl)))
    · exact h.replyRefused _ _ _ _ hs

theorem zoneClearExposureRequest (tag : Byte) (z : Nat) (hs : P s) : P (s.zoneClearExposureRequest tag z) := by
  unfold State.zoneClearExposureRequest
  dsimp only
  split
  · exact h.reply _ _ _ _ hs
  · exact h.reply _ _ _ _ (h.lower _ _ (h.climate _ _ _ hs (Or.inl (Nat.zero_le _))))

/-! ### Fire -/

theorem soundZone (z p : Nat) (hs : P s) : P (s.soundZone z p) := h.queueUrgentAll _ _ _ (by decide) hs
theorem driveZone (z : Nat) (f : Function → Bool) (c : Nat) (hs : P s) : P (s.driveZone z f c) :=
  h.queueUrgentAll _ _ _ (by decide) hs
theorem tellFire (z : Nat) (st : FireState) (hs : P s) : P (s.tellFire z st) := h.hand _ _ hs

theorem recomputeUnmonitored (z : Nat) (hs : P s) : P (s.recomputeUnmonitored z) := by
  unfold State.recomputeUnmonitored
  dsimp only
  split
  · exact hs
  · apply h.hand
    repeat' split
    all_goals with_reducible first
      | exact h.raiseCondition _ _ (h.fire _ _ _ hs) | exact h.fire _ _ _ hs | exact h.lower _ _ (h.fire _ _ _ hs)

theorem regateRelease (z : Nat) (hs : P s) : P (s.regateRelease z) := by
  unfold State.regateRelease
  split
  · exact h.releaseTimer _ _ _ hs
  · exact hs

theorem enterCountdown (z : Nat) (hs : P s) : P (s.enterCountdown z) :=
  h.tellFire _ _ (h.raiseCondition _ _ (h.offerNotice _ (h.soundZone _ _ (h.driveZone _ _ _
    (h.regateRelease _ (h.releaseTimer _ _ _ (h.fire _ _ _ hs)))))))

theorem coupleOne (z t : Nat) (hs : P s) : P (State.coupleOne z s t) := by
  unfold State.coupleOne
  split
  · exact hs
  · exact h.hand _ _ (h.fire _ _ _ hs)

theorem uncoupleOne (z t : Nat) (hs : P s) : P (State.uncoupleOne z s t) := by
  unfold State.uncoupleOne
  split
  · exact h.hand _ _ (h.fire _ _ _ hs)
  · exact hs

theorem enterAlarm (z : Nat) (c : Cause) (hs : P s) : P (s.enterAlarm z c) := by
  unfold State.enterAlarm
  extract_lets before src s1 s2 s3 s4 s5 s6
  have h3 : P s3 := h.offerNotice _ (h.soundZone _ _ (h.driveZone _ _ _ (h.fire _ _ _ hs)))
  have h4 : P s4 := by
    unfold s4
    split
    · exact h.lower _ _ h3
    · exact h3
  have h5 : P s5 := h.tellFire _ _ (h.commandsOff _ (h.raiseCondition _ _ h4))
  have h6 : P s6 := by
    unfold s6
    split
    · exact h.enterCountdown _ h5
    · exact h5
  exact foldl_keeps _ (fun _ _ hs => h.coupleOne _ _ hs) _ _ h6

theorem changeQuiet (z : Nat) (n : FireState) (hs : P s) : P (s.changeQuiet z n) := by
  unfold State.changeQuiet
  dsimp only
  apply h.tellFire
  split
  · exact h.raiseCondition _ _ (h.offerNotice _ (h.soundZone _ _ (h.fire _ _ _ hs)))
  · exact h.lower _ _ (h.offerNotice _ (h.soundZone _ _ (h.fire _ _ _ hs)))

theorem settleFire (z : Nat) (hs : P s) : P (s.settleFire z) := by
  unfold State.settleFire
  split
  · exact h.changeQuiet _ _ hs
  · exact h.changeQuiet _ _ hs
  · exact hs

theorem evaluateFire (z : Nat) (hs : P s) : P (s.evaluateFire z) := by
  unfold State.evaluateFire
  split
  · split
    · exact h.enterAlarm _ _ hs
    · exact h.settleFire _ hs
  · exact hs

theorem detectorFaultFollows (a : Nat) (o n : Stage) (hs : P s) : P (s.detectorFaultFollows a o n) := by
  unfold State.detectorFaultFollows
  split
  · exact h.raiseCondition _ _ hs
  · exact h.lower _ _ hs
  · exact hs

theorem holdChanged (z : Nat) (o : Stage) (hs : P s) : P (s.holdChanged z o) := by
  unfold State.holdChanged
  dsimp only
  split
  · apply h.regateRelease
    split
    · exact h.releaseTimer _ _ _ hs
    · exact hs
  · exact hs

theorem inputChanged (z : Nat) (k : InputKind) (o n : Stage) (hs : P s) : P (s.inputChanged z k o n) := by
  unfold State.inputChanged
  repeat' split
  all_goals with_reducible first | exact h.holdChanged _ _ hs | exact h.enterCountdown _ hs | exact hs | exact h.evaluateFire _ hs

theorem setStage (e : StationEntry) (n : Stage) (hs : P s) : P (s.setStage e n) := by
  unfold State.setStage
  dsimp only
  split
  · exact hs
  · split
    · exact h.inputChanged _ _ _ _ (h.recomputeUnmonitored _ (h.detectorFaultFollows _ _ _ (h.inputStage _ _ _ hs)))
    · exact h.detectorFaultFollows _ _ _ (h.inputStage _ _ _ hs)

theorem chime (z : Nat) (hs : P s) : P (s.chime z) := by
  unfold State.chime
  split
  · exact h.originateAll _ _ _ _ hs
  · exact hs

theorem restartFire (hs : P s) : P s.restartFire :=
  foldl_keeps _ (fun _ _ hs => h.releaseTimer _ _ _ hs) _ _ (h.clearFire _ (h.lowerAll _ hs))

theorem activateFire (hs : P s) : P s.activateFire :=
  foldl_keeps _ (fun _ _ hs => h.recomputeUnmonitored _ hs) _ _ (h.restartFire hs)

theorem deactivateFire (hs : P s) : P s.deactivateFire :=
  foldl_keeps _ (fun _ _ hs => h.hand _ _ hs) _ _ (h.lowerAll _ (h.restartFire hs))

theorem zoneSilenceRequest (tag : Byte) (z : Nat) (hs : P s) : P (s.zoneSilenceRequest tag z) := by
  unfold State.zoneSilenceRequest
  dsimp only
  repeat' split
  all_goals with_reducible first
    | exact h.reply _ _ _ _ hs | exact h.replyRefused _ _ _ _ hs
    | exact h.reply _ _ _ _ (h.soundZone _ _ (h.fire _ _ _ hs))

theorem zoneReleaseRequest (tag : Byte) (z : Nat) (hs : P s) : P (s.zoneReleaseRequest tag z) := by
  unfold State.zoneReleaseRequest
  repeat' split
  all_goals with_reducible first
    | exact h.reply _ _ _ _ hs | exact h.replyRefused _ _ _ _ hs | exact h.reply _ _ _ _ (h.enterCountdown _ hs)

theorem resetFire (z : Nat) (hs : P s) : P (s.resetFire z) := by
  unfold State.resetFire
  extract_lets before s1 new src s2 s3 s4 s5 s6 s7
  have h1 : P s1 := by
    unfold s1
    split
    · exact h.releaseTimer _ _ _ hs
    · exact hs
  have h5 : P s5 := h.lower _ _ (h.lower _ _ (h.lower _ _ (h.offerNotice _ (h.soundZone _ _ (h.fire _ _ _ h1)))))
  have h6 : P s6 := by
    unfold s6
    split
    · exact h.raiseCondition _ _ h5
    · exact h5
  exact foldl_keeps _ (fun _ _ hs => h.uncoupleOne _ _ hs) _ _ (h.tellFire _ _ h6)

theorem zoneFireResetRequest (tag : Byte) (z : Nat) (hs : P s) : P (s.zoneFireResetRequest tag z) := by
  unfold State.zoneFireResetRequest
  dsimp only
  repeat' split
  all_goals with_reducible first
    | exact h.reply _ _ _ _ hs | exact h.replyRefused _ _ _ _ hs | exact h.reply _ _ _ _ (h.resetFire _ hs)

end KeepsJobs

end Sys2Proof.Machine
end

