-- ==== Sys2Proof/Laws/Jobs.lean ====
section
/-!
SUPPORT. What the job blocks leave, said once: the received bytes of both links, the tables that TABLE WRITE alone writes,
the time base's clocks, the Management Agent's state and the commands waiting outside.
-/
namespace Sys2Proof.Machine

/-- What no job block changes. -/
structure JobsLeave (s t : State) : Prop where
  siteRx : t.slp.rx = s.slp.rx
  fieldRx : t.fsp.rx = s.fsp.rx
  rxInWindow : t.fsp.rxInWindow = s.fsp.rxInWindow
  stations : t.cgt.stations = s.cgt.stations
  actuators : t.cgt.actuators = s.cgt.actuators
  secondCount : t.tmb.secondCount = s.tmb.secondCount
  minuteClock : t.tmb.minuteClock = s.tmb.minuteClock
  probes : t.cls.probes = s.cls.probes
  profiles : t.cls.profiles = s.cls.profiles
  inputs : t.frs.inputs = s.frs.inputs
  classes : t.csu.classes = s.csu.classes
  hatches : t.hoc.hatches = s.hoc.hatches
  mga : t.mga = s.mga
  pending : t.pending = s.pending

theorem JobsLeave.rfl' (s : State) : JobsLeave s s := by constructor <;> rfl

theorem JobsLeave.trans {s t u : State} (a : JobsLeave s t) (b : JobsLeave t u) : JobsLeave s u := by
  obtain ⟨a1, a2, a3, a4, a5, a6, a7, a8, a9, a10, a11, a12, a13, a14⟩ := a
  obtain ⟨b1, b2, b3, b4, b5, b6, b7, b8, b9, b10, b11, b12, b13, b14⟩ := b
  exact ⟨b1.trans a1, b2.trans a2, b3.trans a3, b4.trans a4, b5.trans a5, b6.trans a6, b7.trans a7, b8.trans a8,
    b9.trans a9, b10.trans a10, b11.trans a11, b12.trans a12, b13.trans a13, b14.trans a14⟩

theorem Sent.jobsLeave {s t : State} (a : Sent s t) : JobsLeave s t where
  siteRx := a.rx
  fieldRx := a.fieldRx
  rxInWindow := a.rxInWindow
  stations := by rw [a.cgt]
  actuators := by rw [a.cgt]
  secondCount := a.secondCount
  minuteClock := a.minuteClock
  probes := by rw [a.cls]
  profiles := by rw [a.cls]
  inputs := by rw [a.frs]
  classes := by rw [a.csu]
  hatches := a.hatches
  mga := a.mga
  pending := a.pending

/-- The job blocks leave what `JobsLeave` lists. -/
theorem jobs_keep (s : State) : KeepsJobs (JobsLeave s) where
  enqueue := fun t f ht _ => ht.trans (siteEnqueue_reported t f).sent.jobsLeave
  record := fun t k src ht => ht.trans (latchRecord_reported t k src).sent.jobsLeave
  pulse := fun t ht => ht.trans (pulseLatch_reported t).sent.jobsLeave
  present := fun t k p ht => ht.trans (setPresent_reported t k p).sent.jobsLeave
  urgent := fun t f ht hf => ht.trans (((sent_keeps t).urgent t f (Sent.rfl' t) hf).jobsLeave)
  takeUrgent := fun t f r ht hu => ht.trans ((sent_keeps t).takeUrgent t f r (Sent.rfl' t) hu).jobsLeave
  ordinary := fun t it ht hl => ht.trans ((sent_keeps t).ordinary t it (Sent.rfl' t) hl).jobsLeave
  dropOrdinary := fun t l ht hl => ht.trans ((sent_keeps t).dropOrdinary t l (Sent.rfl' t) hl).jobsLeave
  sendOrdinary := fun t it ht => ht.trans ((sent_keeps t).sendOrdinary t it (Sent.rfl' t)).jobsLeave
  poll := fun t i e ht hn => ht.trans ((sent_keeps t).poll t i e (Sent.rfl' t) hn).jobsLeave
  idle := fun t ht => ht.trans ((sent_keeps t).idle t (Sent.rfl' t)).jobsLeave
  manual := fun t h ht => ht.trans ((sent_keeps t).manual t h (Sent.rfl' t)).jobsLeave
  unlockRef := fun t h ht => ht.trans ((sent_keeps t).unlockRef t h (Sent.rfl' t)).jobsLeave
  hand := fun t _ ht => ht.trans (by constructor <;> rfl)
  takeHanded := fun t _ ht => ht.trans (by constructor <;> rfl)
  runtime := fun t _ _ ht _ => ht.trans (by constructor <;> simp)
  clearRuntime := fun t ht => ht.trans (by constructor <;> rfl)
  zone := fun t _ _ ht => ht.trans (by constructor <;> simp)
  probeState := fun t _ _ ht => ht.trans (by constructor <;> simp)
  clearProbes := fun t ht => ht.trans (by constructor <;> rfl)
  climate := fun t _ _ ht _ => ht.trans (by constructor <;> simp)
  inputStage := fun t _ _ ht => ht.trans (by constructor <;> simp)
  fire := fun t _ _ ht => ht.trans (by constructor <;> simp)
  clearFire := fun t ht => ht.trans (by constructor <;> rfl)
  media := fun t _ _ ht => ht.trans (by constructor <;> simp)
  scan := fun t _ ht => ht.trans (by constructor <;> rfl)
  sweep := fun t _ ht => ht.trans (by constructor <;> rfl)
  hatchRuntime := fun t _ _ ht => ht.trans (by constructor <;> simp)
  clearHatches := fun t ht => ht.trans (by constructor <;> rfl)
  setConsignment := fun t _ ht => ht.trans (by constructor <;> rfl)
  addConsignment := fun t _ ht _ => ht.trans (by constructor <;> rfl)
  dropConsignment := fun t _ ht => ht.trans (by constructor <;> rfl)
  releaseTimer := fun t _ _ ht => ht.trans (by constructor <;> simp)
  stepTimer := fun t _ _ ht => ht.trans (by constructor <;> simp)
  dwellTimer := fun t _ _ ht => ht.trans (by constructor <;> simp)
  supervision := fun t _ ht => ht.trans (by constructor <;> rfl)
  retry := fun t _ ht => ht.trans (by constructor <;> rfl)

end Sys2Proof.Machine
end

