-- ==== Sys2Proof/Laws/Steps.lean ====
section
/-!
SUPPORT. `Keeps` for the Handover Controller, the ports, the Time Base and the Management Agent, and the law of every
command and step: a property that the updates of `Keeps` keep is kept by `exec` and by `step`.
-/
namespace Sys2Proof.Machine

namespace KeepsJobs

variable {P : State → Prop} (h : KeepsJobs P) {s : State} {w : Work}
include h

/-! ### One event of the Handover Controller -/

theorem queueHoc (f : HocFrame) (hs : P s) : P (s.queueHoc f) := by
  unfold State.queueHoc
  split
  · exact h.originate _ _ _ _ hs
  · exact h.queueUrgent _ _ _ (by decide) hs

theorem finish (hw : P w.s) : P w.finish :=
  foldl_keeps _ (fun _ _ hs => h.chime _ hs) _ _
    (foldl_keeps _ (fun _ _ hs => h.raiseEvent _ _ hs) _ _
      (foldl_keeps _ (fun _ _ hs => h.offerNotice _ hs) _ _
        (foldl_keeps _ (fun _ _ hs => h.queueHoc _ hs) _ _ hw)))

theorem missPending (c : Consignment) (op : ItemOp) (hs : P s) : P (s.missPending c op) := by
  refine foldl_keeps _ (fun s i hs => ?_) _ _ hs
  split
  · exact h.itemOp _ _ hs
  · exact hs

theorem setRuntime (i : Nat) (f : HatchRuntime → HatchRuntime) (hw : P w.s) : P (w.setRuntime i f).s :=
  h.hatchRuntime _ _ _ hw
theorem startStep (i l : Nat) (c r : Bool) (hw : P w.s) : P (w.startStep i l c r).s := h.stepTimer _ _ _ hw
theorem startDwell (i : Nat) (t : State → Timer) (hw : P w.s) :
    P (w.mapState (fun s => s.setDwellTimer i (t s))).s := h.dwellTimer _ _ _ hw
theorem enter (c : Consignment) (b : ConsignState) (hw : P w.s) : P (w.enter c b).s := h.setConsignment _ _ hw

omit h in
theorem lock (i : Nat) (u : Bool) (hw : P w.s) : P (w.lock i u).s := by
  unfold Work.lock
  dsimp only
  split <;> exact hw

theorem remove (c : Consignment) (o : HandoverEnd) (hw : P w.s) : P (w.remove c o).s := by
  unfold Work.remove
  dsimp only
  split
  · exact h.dropConsignment _ _ hw
  · exact h.setRuntime _ _ (h.dwellTimer _ _ _ (h.stepTimer _ _ _ (h.dropConsignment _ _ hw)))

theorem abortingPosition (c : Consignment) (hw : P w.s) : P (w.abortingPosition c).s := by
  unfold Work.abortingPosition
  dsimp only
  repeat' split
  all_goals first | exact hw | exact lock _ _ hw | exact h.remove _ _ hw

theorem abort (c : Consignment) (why : AbortReason) (hw : P w.s) : P (w.abort c why).s := by
  unfold Work.abort
  extract_lets before src c1 w1 w2 w3
  have h1 : P w1.s := h.missPending _ _ hw
  have h2 : P w2.s := h.setRuntime _ _ (h.startDwell _ _ h1)
  have h3 : P w3.s := h.enter c1 before h2
  split
  · exact h.abortingPosition _ h3
  · exact h.abortingPosition _ (h.startStep _ _ _ _ h3)

theorem closingPosition (c : Consignment) (hw : P w.s) : P (w.closingPosition c).s := by
  unfold Work.closingPosition
  dsimp only
  repeat' split
  all_goals first
    | exact hw | exact lock _ _ hw | exact h.remove _ _ hw | exact h.dwellTimer _ _ _ hw | exact h.abort _ _ hw

theorem enterClosing (c : Consignment) (e : EndCause) (hw : P w.s) : P (w.enterClosing c e).s :=
  h.closingPosition _ (h.enter _ _ (h.startStep _ _ _ _ hw))

theorem endTransfer (c : Consignment) (e : EndCause) (hw : P w.s) : P (w.endTransfer c e).s :=
  h.enterClosing _ _ (h.missPending _ _ hw)

theorem testUnlock (c : Consignment) (hw : P w.s) : P (w.testUnlock c).s := by
  unfold Work.testUnlock
  dsimp only
  split
  · exact h.enter _ _ (h.startStep _ _ _ _ (h.hatchRuntime _ _ _ hw))
  · exact hw

theorem enterOffered (c : Consignment) (hw : P w.s) : P (w.enterOffered c).s := by
  unfold Work.enterOffered
  extract_lets he c1 w1 w2 w3
  have h2 : P w2.s := h.startStep _ _ _ _ hw
  have h3 : P w3.s := by
    unfold w3
    split
    · exact h.dwellTimer _ _ _ (h.hatchRuntime _ _ _ h2)
    · exact h.hatchRuntime _ _ _ h2
  exact h.testUnlock _ (h.enter _ _ h3)

theorem runGate (c : Consignment) (hw : P w.s) : P (w.runGate c).s := by
  unfold Work.runGate
  split
  · exact h.enterOffered _ hw
  · exact h.enter _ _ (h.startStep _ _ _ _ hw)

theorem retryGate (c : Consignment) (hw : P w.s) : P (w.retryGate c).s := by
  unfold Work.retryGate
  split
  · exact h.enterOffered _ hw
  · exact h.setConsignment _ _ hw

omit h in
theorem forced (i : Nat) (hw : P w.s) : P (w.forced i).s := by
  unfold Work.forced
  split <;> exact hw

theorem positionRules (i : Nat) (o n : Position) (hw : P w.s) : P (w.positionRules i o n).s := by
  unfold Work.positionRules
  extract_lets force
  split
  · split
    · exact forced _ hw
    · exact hw
  · split
    · exact hw
    all_goals repeat' split
    all_goals with_reducible first
      | exact hw | exact h.abort _ _ (forced _ hw) | exact h.abort _ _ hw
      | exact h.enter _ _ (h.startStep _ _ _ _ hw) | exact h.closingPosition _ hw | exact h.abortingPosition _ hw

theorem reportPosition (i : Nat) (he : HatchEntry) (n : Position) (hs : P s) : P (s.reportPosition i he n) := by
  unfold State.reportPosition
  dsimp only
  split
  · exact h.hatchRuntime _ _ _ hs
  · exact h.finish (h.positionRules _ _ _ (h.regateRelease _ (h.hatchRuntime _ _ _ hs)))

theorem hatchSilent (e : StationEntry) (hs : P s) : P (s.hatchSilent e) := by
  unfold State.hatchSilent
  split
  · exact hs
  · extract_lets src s1
    have h1 : P s1 := h.regateRelease _ (h.hatchRuntime _ _ _ hs)
    split
    · exact h1
    · split
      · exact h1
      · exact h.finish (h.abort _ _ h1)

theorem hatchReturned (e : StationEntry) (hs : P s) : P (s.hatchReturned e) := by
  unfold State.hatchReturned
  split
  · exact hs
  · exact h.regateRelease _ (h.hatchRuntime _ _ _ hs)

theorem grantArrive (d : Nat) (c : Consignment) (hw : P w.s) : P (w.grantArrive d c).s := by
  unfold Work.grantArrive
  dsimp only
  split
  · exact h.enter _ _ (h.startStep _ _ _ _ hw)
  · exact h.runGate _ hw

theorem serveArrive (i : Nat) (he : HatchEntry) (d : Nat) (p : List Byte) (hw : P w.s) :
    P (w.serveArrive i he d p).s := by
  unfold Work.serveArrive
  dsimp only
  repeat' split
  all_goals first | exact h.grantArrive _ _ hw | exact hw

theorem serveCase (i d : Nat) (p : List Byte) (hw : P w.s) : P (w.serveCase i d p).s := by
  unfold Work.serveCase
  split
  · exact hw
  · split
    · exact hw
    · dsimp only
      split
      · exact h.runGate _ hw
      · exact h.retryGate _ hw

theorem serveFlag (i d : Nat) (k : StepKind) (p : List Byte) (m : Consignment → Consignment) (hw : P w.s) :
    P (w.serveFlag i d k p m).s := by
  unfold Work.serveFlag
  split
  · exact hw
  · split
    · exact h.testUnlock _ (h.setConsignment _ _ hw)
    · exact hw

theorem serveDone (i d : Nat) (p : List Byte) (hw : P w.s) : P (w.serveDone i d p).s := by
  unfold Work.serveDone
  split
  · exact hw
  · split
    · exact h.endTransfer _ _ hw
    · exact hw

theorem passItem (d : Nat) (p : List Byte) (c : Consignment) (i : Item) (hw : P w.s) : P (w.passItem d p c i).s := by
  unfold Work.passItem
  extract_lets c1 w1 w2 w3
  have h3 : P w3.s := h.stepTimer _ _ _ (h.setConsignment _ _ (h.itemOp _ _ hw))
  split
  · exact h3
  · exact h.enterClosing _ _ h3

theorem serveItem (i d : Nat) (dir : Direction) (p : List Byte) (hw : P w.s) : P (w.serveItem i d dir p).s := by
  unfold Work.serveItem
  repeat' split
  all_goals first | exact hw | exact h.passItem _ _ _ _ hw

theorem hatchFrame (e : StationEntry) (ok : Bool) (sender : Nat → HatchEntry → Bool) (reply : Work → Outcome → Work)
    (serve : Work → Nat → HatchEntry → Work) (hr : ∀ w o, P w.s → P (reply w o).s)
    (hv : ∀ w i he, P w.s → P (serve w i he).s) (hs : P s) : P (s.hatchFrame e ok sender reply serve) := by
  unfold State.hatchFrame
  split
  · exact h.finish (hr _ _ hs)
  · split
    · exact h.finish (hr _ _ hs)
    · split
      · exact h.finish (hr _ _ hs)
      · exact h.finish (hv _ _ _ hs)

theorem zoneReportOn (r : ZoneReport) (p : Nat × HatchEntry) (hw : P w.s) : P (w.zoneReportOn r p).s := by
  unfold Work.zoneReportOn
  repeat' split
  all_goals first
    | exact hw | exact h.retryGate _ hw | exact h.hatchRuntime _ _ _ hw | exact h.abort _ _ hw | exact h.testUnlock _ hw

omit h in
theorem foldl_work {α : Type} (f : Work → α → Work) (hf : ∀ w a, P w.s → P (f w a).s) (l : List α) :
    ∀ w, P w.s → P (l.foldl f w).s := by
  induction l with
  | nil => intro w hw; exact hw
  | cons a l ih => intro w hw; exact ih _ (hf w a hw)

theorem takeZoneReport (z : Nat) (r : ZoneReport) (hs : P s) : P (s.takeZoneReport z r) := by
  unfold State.takeZoneReport
  split
  · exact h.finish (foldl_work _ (fun _ _ hw => h.zoneReportOn _ _ hw) _ _ hs)
  · exact hs

theorem stepExpired (i : Nat) (hw : P w.s) : P (w.stepExpired i).s := by
  unfold Work.stepExpired
  split
  · exact hw
  · split
    · exact hw
    · exact h.abort _ _ hw
    · exact h.abort _ _ hw
    · exact h.abort _ _ hw
    · exact h.abort _ _ hw
    · exact h.endTransfer _ _ hw
    · dsimp only
      split
      · exact lock _ _ hw
      · exact hw
    · dsimp only
      split
      · exact lock _ _ hw
      · exact hw

theorem stepTimerExpired (i : Nat) (hs : P s) : P (State.stepTimerExpired i s) :=
  h.finish (h.stepExpired i (h.stepTimer _ _ _ hs))

theorem dwellExpired (i : Nat) (hw : P w.s) : P (w.dwellExpired i).s := by
  unfold Work.dwellExpired
  repeat' split
  all_goals first | exact hw | exact lock _ _ hw | exact h.testUnlock _ (h.hatchRuntime _ _ _ hw)

theorem dwellTimerExpired (i : Nat) (hs : P s) : P (State.dwellTimerExpired i s) :=
  h.finish (h.dwellExpired i (h.dwellTimer _ _ _ hs))

theorem dropWaiting (c : Consignment) (o : HandoverEnd) (hw : P w.s) : P (w.dropWaiting c o).s :=
  h.remove _ _ (h.missPending _ _ hw)

theorem handoverMinute (hs : P s) : P s.handoverMinute := by
  unfold State.handoverMinute
  split
  · exact h.finish (foldl_work _ (fun _ _ hw => h.dropWaiting _ _ hw) _ _ hs)
  · exact hs

theorem restartHatches (hs : P s) : P s.restartHatches :=
  foldl_keeps _ (fun _ _ hs => h.dwellTimer _ _ _ (h.stepTimer _ _ _ hs)) _ _ (h.clearHatches _ hs)

omit h in
theorem itemOps_consignments (op : ItemOp) (l : List Item) :
    ∀ s : State, (l.foldl (fun s i => s.itemOp i.slot op) s).hoc = s.hoc := by
  induction l with
  | nil => intro s; rfl
  | cons a l ih =>
    intro s
    rw [List.foldl_cons, ih]
    unfold State.itemOp
    split <;> simp

theorem consignRequest (tag : Byte) (n d i : Nat) (c : Ident) (ids : List Ident) (hs : P s) :
    P (s.consignRequest tag n d i c ids) := by
  unfold State.consignRequest
  split
  · split
    · exact h.reply _ _ _ _ hs
    · rename_i hfull
      split
      · exact h.replyRefused _ _ _ _ hs
      · split
        · exact h.reply _ _ _ _ hs
        · split
          · exact h.replyRefused _ _ _ _ hs
          · split
            · exact h.reply _ _ _ _ hs
            · exact h.replyRefused _ _ _ _ hs
            · exact h.replyRefused _ _ _ _ hs
            · exact h.replyRefused _ _ _ _ hs
            · refine h.reply _ _ _ _ (h.addConsignment _ _ (foldl_keeps _ (fun _ _ hs => h.itemOp _ _ hs) _ _ hs) ?_)
              rw [itemOps_consignments]
              omega
  · exact h.reply _ _ _ _ hs

theorem consignCancelRequest (tag : Byte) (n : Nat) (hs : P s) : P (s.consignCancelRequest tag n) := by
  unfold State.consignCancelRequest
  have hb : P s.begin.s := hs
  repeat' split
  all_goals with_reducible first
    | exact h.reply _ _ _ _ hs | exact h.reply _ _ _ _ (h.finish (h.dropWaiting _ _ hb))
    | exact h.reply _ _ _ _ (h.finish (h.remove _ _ hb)) | exact h.reply _ _ _ _ (h.finish (h.abort _ _ hb))

/-! ### Classification and responses -/

theorem classifySite (f : Frame) (hs : P s) : P (s.classifySite f) := by
  unfold State.classifySite
  repeat' split
  all_goals with_reducible first
    | exact h.hand _ _ hs | exact h.frameError _ hs | exact h.offerBlocked _ _ _ hs | exact h.offerOrdinary _ hs

theorem siteFrameDone (b : List Byte) (hs : P s) : P (s.siteFrameDone b) := by
  unfold State.siteFrameDone
  repeat' split
  all_goals with_reducible first | exact h.frameError _ hs | exact h.classifySite _ hs

theorem tellSilent (e : StationEntry) (hs : P s) : P (s.tellSilent e) := by
  unfold State.tellSilent
  split
  · exact h.probeSilent _ hs
  · exact h.setStage _ _ hs
  · exact h.hatchSilent _ hs
  all_goals exact hs

theorem tellReturned (e : StationEntry) (hs : P s) : P (s.tellReturned e) := by
  unfold State.tellReturned
  split
  · exact h.probeState _ _ _ hs
  · exact h.setStage _ _ hs
  · exact h.hatchReturned _ hs
  all_goals exact hs

theorem missedResponse (i a : Nat) (b : Bool) (hs : P s) : P (s.missedResponse i a b) := by
  unfold State.missedResponse
  split
  · dsimp only
    split
    · refine h.runtime _ _ _ hs (Or.inl ⟨rfl, ?_, rfl⟩)
      assumption
    · split
      · exact h.runtime _ _ _ hs (Or.inr (Or.inl ⟨rfl, rfl⟩))
      · split
        · exact h.tellSilent _ (h.raiseCondition _ _ (h.runtime _ _ _ hs (Or.inr (Or.inl ⟨rfl, rfl⟩))))
        · exact h.raiseCondition _ _ (h.runtime _ _ _ hs (Or.inr (Or.inl ⟨rfl, rfl⟩)))
  · exact hs

theorem answeredPoll (i a : Nat) (b : Bool) (hs : P s) : P (s.answeredPoll i a b) := by
  unfold State.answeredPoll
  split
  · dsimp only
    split
    · split
      · exact h.tellReturned _ (h.lower _ _ (h.runtime _ _ _ hs (Or.inr (Or.inr (Or.inl ⟨rfl, rfl⟩)))))
      · exact h.lower _ _ (h.runtime _ _ _ hs (Or.inr (Or.inr (Or.inl ⟨rfl, rfl⟩))))
    · exact h.runtime _ _ _ hs (Or.inr (Or.inr (Or.inl ⟨rfl, rfl⟩)))
  · exact hs

theorem forwardByPolicy (i : Nat) (e : StationEntry) (f : Frame) (hs : P s) : P (s.forwardByPolicy i e f) := by
  unfold State.forwardByPolicy
  split
  · exact h.offerSite _ hs
  · exact hs
  · dsimp only
    split
    · split
      · exact h.offerSite _ hs
      · exact h.offerSite _ (h.runtime _ _ _ hs (Or.inr (Or.inr (Or.inr ⟨rfl, rfl⟩))))
    · exact hs

theorem dispatch (e : StationEntry) (i : Nat) (f : Frame) (hs : P s) : P (s.dispatch e i f) := by
  unfold State.dispatch
  split
  · exact h.hand _ _ hs
  · exact hs

theorem classifyResponse (i : Nat) (f : Frame) (hs : P s) : P (s.classifyResponse i f) := by
  unfold State.classifyResponse
  split
  · exact hs
  · split
    · dsimp only
      split
      · exact hs
      · apply h.dispatch
        split
        · exact hs
        · exact h.forwardByPolicy _ _ _ hs
    · exact h.offerSite _ hs

theorem judgeResponse (i a : Nat) (b : Bool) (p : List Byte) (hs : P s) : P (s.judgeResponse i a b p) := by
  unfold State.judgeResponse
  split
  · exact h.missedResponse _ _ _ (h.frameError _ hs)
  · split
    · exact h.missedResponse _ _ _ (h.raiseEvent _ _ hs)
    · split
      · exact h.missedResponse _ _ _ (h.raiseEvent _ _ hs)
      · exact h.classifyResponse _ _ (h.answeredPoll _ _ _ hs)

theorem fieldFrameDone (b : Bool) (p : List Byte) (hs : P s) : P (s.fieldFrameDone b p) := by
  unfold State.fieldFrameDone
  split
  · exact h.arbitrate (h.judgeResponse _ _ _ _ hs)
  · exact h.frameError _ hs

end KeepsJobs

namespace Keeps

variable {P : State → Prop} (h : Keeps P) {s : State} {w : Work}
include h

/-! ### The ports -/

theorem siteAssemble (n : Nat) : ∀ s, P s → P (State.siteAssemble n s) := by
  induction n with
  | zero => intro s hs; exact hs
  | succ n ih =>
    intro s hs
    unfold State.siteAssemble
    split
    · exact hs
    · exact ih _ (h.siteFrameDone _ (h.siteRx _ _ hs))

theorem siteBytes (b : List Byte) (hs : P s) : P (s.siteBytes b) := h.siteAssemble _ _ (h.siteRx _ _ hs)

theorem fieldAssemble (n : Nat) : ∀ s, P s → P (State.fieldAssemble n s) := by
  induction n with
  | zero => intro s hs; exact hs
  | succ n ih =>
    intro s hs
    unfold State.fieldAssemble
    split
    · exact hs
    · exact ih _ (h.fieldRx _ _ _ (h.fieldFrameDone _ _ (h.fieldRx s _ s.fsp.rxInWindow hs)))

theorem fieldBytes (b : List Byte) (hs : P s) : P (s.fieldBytes b) := h.fieldAssemble _ _ (h.fieldRx _ _ _ hs)

theorem fieldGap (hs : P s) : P s.fieldGap := by
  unfold State.fieldGap
  split
  · exact hs
  · extract_lets src s1 s2
    have h1 : P s1 := h.fieldRx s _ _ hs
    have h2 : P s2 := h.frameError _ h1
    split
    · exact h.arbitrate (h.missedResponse _ _ _ h2)
    · exact h2

theorem siteGap (hs : P s) : P s.siteGap := by
  unfold State.siteGap
  split
  · exact hs
  · exact h.frameError _ (h.siteRx s _ hs)

theorem transmissionEnd (hs : P s) : P s.transmissionEnd := by
  unfold State.transmissionEnd
  split
  · exact h.window _ _ _ _ hs
  · exact h.arbitrate hs
  · exact h.arbitrate hs
  · exact hs
  · exact hs

theorem windowExpiry (hs : P s) : P s.windowExpiry := by
  unfold State.windowExpiry
  split
  · split
    · exact hs
    · exact h.arbitrate (h.missedResponse _ _ _ hs)
  · exact hs
  · exact hs

theorem siteTransmitted (hs : P s) : P s.siteTransmitted := by
  unfold State.siteTransmitted
  split
  · exact hs
  · split
    · exact h.reset _ hs
    · exact h.txDone _ hs

/-! ### The Time Base -/

theorem advanceRelease (z : Nat) (hs : P s) : P (s.advanceRelease z) := by
  unfold State.advanceRelease
  extract_lets t s1
  have h1 : P s1 := h.releaseTimer _ _ _ hs
  split
  · exact h.hand _ _ (h.releaseTimer _ _ _ hs)
  · exact h.releaseTimer _ _ _ hs

theorem advanceStep (i : Nat) (hs : P s) : P (s.advanceStep i) := by
  unfold State.advanceStep
  dsimp only
  split
  · exact h.hand _ _ (h.stepTimer _ _ _ hs)
  · exact h.stepTimer _ _ _ hs

theorem advanceDwell (i : Nat) (hs : P s) : P (s.advanceDwell i) := by
  unfold State.advanceDwell
  dsimp only
  split
  · exact h.hand _ _ (h.dwellTimer _ _ _ hs)
  · exact h.dwellTimer _ _ _ hs

theorem advanceSupervision (hs : P s) : P s.advanceSupervision := by
  unfold State.advanceSupervision
  dsimp only
  split
  · exact h.hand _ _ (h.supervision _ _ hs)
  · exact h.supervision _ _ hs

theorem advanceRetry (hs : P s) : P s.advanceRetry := by
  unfold State.advanceRetry
  dsimp only
  split
  · exact h.hand _ _ (h.retry _ _ hs)
  · exact h.retry _ _ hs

theorem advanceSeconds (hs : P s) : P s.advanceSeconds := by
  unfold State.advanceSeconds
  extract_lets s1 s2 s3
  have h1 : P s1 := foldl_keeps _ (fun _ _ hs => h.advanceRelease _ hs) _ _ hs
  have h2 : P s2 := foldl_keeps _ (fun _ _ hs => h.advanceStep _ hs) _ _ h1
  have h3 : P s3 := foldl_keeps _ (fun _ _ hs => h.advanceDwell _ hs) _ _ h2
  exact h.advanceRetry (h.advanceSupervision h3)

theorem minuteTick (o : OwnerOrder) (hs : P s) : P (s.minuteTick o) := by
  unfold State.minuteTick
  have h1 := h.minuteClock s (s.tmb.minuteClock + 1) hs
  cases o
  · exact h.handoverMinute (h.custodyMinute (h.climateMinute h1))
  · exact h.climateMinute (h.handoverMinute (h.custodyMinute h1))

theorem secondTick (o : OwnerOrder) (hs : P s) : P (s.secondTick o) := by
  unfold State.secondTick
  split
  · rename_i hlt; exact h.advanceSeconds (h.secondCount _ _ hs hlt)
  · exact h.minuteTick _ (h.advanceSeconds (h.secondCount _ _ hs (by decide)))

theorem pulsePasses (hs : P s) : P s.pulsePasses := by
  unfold State.pulsePasses
  split
  · exact h.endPulse _ hs
  · exact hs

/-! ### The Management Agent -/

theorem mgaKept (m : Mga) (hm : m.burns = s.mga.burns) (hs : P s) : P (s.setMga m) :=
  h.mga _ _ hs (fun i => Or.inl (by rw [hm]))

theorem startSupervision (hs : P s) : P s.startSupervision := by
  unfold State.startSupervision
  split
  · exact h.supervision _ _ hs
  · exact h.supervision _ _ hs

theorem supervisionExpired (hs : P s) : P s.supervisionExpired := by
  unfold State.supervisionExpired
  dsimp only
  split
  · exact h.beginFallback (h.raiseCondition _ _ (h.mgaKept _ rfl (h.supervision _ _ hs)))
  · exact h.supervision _ _ hs

theorem resumeRequest (tag : Byte) (hs : P s) : P (s.resumeRequest tag) := by
  unfold State.resumeRequest
  dsimp only
  split
  · exact h.reply _ _ _ _ (h.endFallback (h.startSupervision (h.lower _ _ (h.mgaKept _ rfl hs))))
  · exact h.replyRefused _ _ _ _ hs

theorem tableOpenRequest (tag : Byte) (t i : Nat) (hs : P s) : P (s.tableOpenRequest tag t i) := by
  unfold State.tableOpenRequest
  split
  · exact h.reply _ _ _ _ hs
  · split
    · exact h.reply _ _ _ _ (h.mgaKept _ rfl hs)
    · exact h.reply _ _ _ _ hs

theorem storeStation (i : Nat) (e : StationEntry) (hs : P s) : P (s.storeStation i e) := by
  unfold State.storeStation
  extract_lets s1 s2 s3 s4
  have h1 : P s1 := by
    unfold s1
    split
    · exact h.lower _ _ hs
    · exact hs
  have h2 : P s2 := h.runtime _ _ _ h1 (Or.inr (Or.inr (Or.inl ⟨rfl, rfl⟩)))
  have h3 : P s3 := by
    unfold s3
    split
    · split
      · exact h.window _ _ _ _ h2
      · exact h2
    · exact h2
    · exact h2
  have h4 : P s4 := h.station _ _ _ h3
  split
  · exact h.arbitrateIfIdle h4
  · exact h4

theorem storeEntry (t : TableId) (i : Nat) (p : List Byte) (hs : P s) : P (s.storeEntry t i p) := by
  unfold State.storeEntry
  repeat' split
  all_goals with_reducible first
    | exact hs | exact h.storeStation _ _ hs | exact h.profile _ _ _ hs | exact h.testExposed _ (h.zone _ _ _ hs)
    | exact h.probeCal _ _ _ hs | exact h.inputKind _ _ _ hs | exact h.actuator _ _ _ hs | exact h.hatch _ _ _ hs
    | exact h.classEntry _ _ _ hs

omit h in
theorem reported_burns {s t : State} (a : Reported s t) : t.mga.burns = s.mga.burns := by rw [a.mga]

theorem storeEntries (t : TableId) (p n : Nat) (b : List Byte) (hs : P s) : P (s.storeEntries t p n b) :=
  foldl_keeps _ (fun _ _ hs => h.storeEntry _ _ _ hs) _ _ hs

theorem tableWriteRequest (tag : Byte) (n : Nat) (b : List Byte) (hs : P s) : P (s.tableWriteRequest tag n b) := by
  unfold State.tableWriteRequest
  split
  · exact h.reply _ _ _ _ hs
  · split
    · exact h.replyRefused _ _ _ _ hs
    · split
      · exact h.reply _ _ _ _ hs
      · split
        · exact h.replyRefused _ _ _ _ hs
        · split
          · exact h.reply _ _ _ _ hs
          · split
            · exact h.replyRefused _ _ _ _ hs
            · exact h.reply _ _ _ _ (h.mga _ _ (h.storeEntries _ _ _ _ hs) (fun i => Or.inl rfl))

theorem tableReadRequest (tag : Byte) (n : Nat) (hs : P s) : P (s.tableReadRequest tag n) := by
  unfold State.tableReadRequest
  repeat' split
  all_goals with_reducible first
    | exact h.reply _ _ _ _ hs | exact h.replyRefused _ _ _ _ hs | exact h.reply _ _ _ _ (h.mgaKept _ rfl hs)

theorem activateRequest (tag : Byte) (x : Nat) (hs : P s) : P (s.activateRequest tag x) := by
  unfold State.activateRequest
  split
  · exact h.replyRefused _ _ _ _ hs
  · exact h.mgaKept _ rfl hs

theorem restartStations (hs : P s) : P s.restartStations := by
  unfold State.restartStations
  refine h.clearRuntime _ (foldl_keeps _ (fun t p ht => ?_) _ _ hs)
  split
  · exact h.lower _ _ ht
  · exact ht

theorem activateOwners (o : OwnerOrder) (hs : P s) : P (s.activateOwners o) := by
  unfold State.activateOwners
  apply h.restartHatches
  cases o
  · exact h.activateFire (h.activateClimate (h.restartStations hs))
  · exact h.activateClimate (h.activateFire (h.restartStations hs))

theorem checkComplete (o : OwnerOrder) (hs : P s) : P (s.checkComplete o) := by
  unfold State.checkComplete
  split
  · exact hs
  · extract_lets src s1 sum
    have h1 : P s1 := h.mgaKept _ rfl hs
    split
    · exact h.replyRefused _ _ _ _ h1
    · split
      · exact h.replyRefused _ _ _ _ h1
      · exact h.reply _ _ _ _ (h.activateOwners _ (h.startSupervision (h.mgaKept _ rfl h1)))

theorem deactivateOwners (hs : P s) : P s.deactivateOwners :=
  h.restartHatches (h.deactivateFire (h.deactivateClimate (h.restartStations hs)))

theorem deactivateRequest (tag : Byte) (hs : P s) : P (s.deactivateRequest tag) := by
  unfold State.deactivateRequest
  split
  · exact h.replyRefused _ _ _ _ hs
  · exact h.replyRefused _ _ _ _ hs
  · split
    · exact h.replyRefused _ _ _ _ hs
    · exact h.replyRefused _ _ _ _ hs
    · exact h.reply _ _ _ _ (h.deactivateOwners (h.supervision _ _ (h.mgaKept _ rfl hs)))

theorem restartRequest (tag : Byte) (hs : P s) : P (s.restartRequest tag) := by
  unfold State.restartRequest
  split
  · exact h.reset _ hs
  · exact h.offerSite _ (h.mgaKept _ rfl hs)

theorem clearAlertsRequest (tag : Byte) (c : List Nat) (hs : P s) : P (s.clearAlertsRequest tag c) := by
  unfold State.clearAlertsRequest
  split
  · exact h.reply _ _ _ _ hs
  · extract_lets still s1
    have h1 : P s1 := foldl_keeps _ (fun _ _ hs => h.clearAlert _ _ hs) _ _ hs
    split <;> exact h.reply _ _ _ _ h1

theorem setMaskRequest (tag : Byte) (v : Nat) (c : List Nat) (hs : P s) : P (s.setMaskRequest tag v c) := by
  unfold State.setMaskRequest
  split
  · exact h.reply _ _ _ _ hs
  · split
    · exact h.replyRefused _ _ _ _ hs
    · exact h.reply _ _ _ _ (h.masks _ _ _ hs)

omit h in
theorem get_set (f : Figures) (i j : StoreItem) (v : Nat) :
    Figures.get (Figures.set f i v) j = if j = i then v else Figures.get f j := by
  cases i <;> cases j <;> rfl

theorem storeBurnRequest (tag : Byte) (i v : Nat) (hs : P s) : P (s.storeBurnRequest tag i v) := by
  unfold State.storeBurnRequest
  split
  · exact h.reply _ _ _ _ hs
  · split
    · exact h.reply _ _ _ _ hs
    · split
      · exact h.reply _ _ _ _ hs
      · split
        · exact h.reply _ _ _ _ hs
        · rename_i h4
          split
          · exact h.replyRefused _ _ _ _ hs
          · refine h.mga _ _ hs (fun j => ?_)
            dsimp only
            rw [get_set]
            split
            · rename_i hj; subst hj; exact Or.inr ⟨by omega, rfl⟩
            · exact Or.inl rfl

theorem burnComplete (hs : P s) : P s.burnComplete := by
  unfold State.burnComplete
  split
  · exact hs
  · exact h.reply _ _ _ _ (h.mgaKept _ rfl hs)

theorem changeLive (i : StoreItem) (v : Nat) (hs : P s) : P (s.changeLive i v) := by
  unfold State.changeLive
  have h1 : P (s.setMga { s.mga with live := s.mga.live.set i v }) := h.mgaKept _ rfl hs
  dsimp only
  split
  · exact h.startSupervision h1
  · exact h1

theorem setLiveRequest (tag : Byte) (i v : Nat) (hs : P s) : P (s.setLiveRequest tag i v) := by
  unfold State.setLiveRequest
  split
  · exact h.reply _ _ _ _ hs
  · split
    · exact h.reply _ _ _ _ hs
    · split
      · exact h.replyRefused _ _ _ _ hs
      · split
        · exact h.replyRefused _ _ _ _ hs
        · exact h.changeLive _ _ (h.reply _ _ _ _ hs)

theorem readReply (tag : Byte) (r : Except Status (List Byte)) (hs : P s) : P (s.readReply tag r) := by
  unfold State.readReply
  split <;> exact h.reply _ _ _ _ hs

/-! ### Every command and every step -/

/-- A property kept by the updates of `Keeps`, and by the expiry of a release timer where the command is one, is kept
by the command. -/
theorem exec (c : Instr) {t : State} (hr : ∀ z s, c = .releaseTimerExpiry z → P s → P (State.releaseExpired z s))
    (hs : P s) (ht : Machine.exec c s = .next t) : P t := by
  cases c <;> (simp only [Machine.exec] at ht)
  case reset => injection ht with ht; subst ht; exact h.reset _ hs
  case byteGapTimeout l =>
    injection ht with ht; subst ht
    cases l
    · exact h.siteGap hs
    · exact h.fieldGap hs
  case siteFrameReceived => injection ht with ht; subst ht; exact h.siteBytes _ hs
  case siteTransmitComplete => injection ht with ht; subst ht; exact h.siteTransmitted hs
  case fieldTransmissionEnd => injection ht with ht; subst ht; exact h.transmissionEnd hs
  case responseWindowExpiry => injection ht with ht; subst ht; exact h.windowExpiry hs
  case fieldResponse => injection ht with ht; subst ht; exact h.fieldBytes _ hs
  case fieldFrameOutOfTurn => injection ht with ht; subst ht; exact h.fieldBytes _ hs
  case sample => injection ht with ht; subst ht; exact h.take _ _ _ _ (fun _ hs => h.takeSample _ _ hs) hs
  case stage => injection ht with ht; subst ht; exact h.take _ _ _ _ (fun _ hs => h.setStage _ _ hs) hs
  case coupledZoneEvaluation =>
    injection ht with ht; subst ht
    refine h.takeEvent _ _ (fun s hs => ?_) hs
    split
    · exact h.evaluateFire _ hs
    · exact hs
  case position =>
    injection ht with ht; subst ht
    refine h.take _ _ _ _ (fun s hs => ?_) hs
    split
    · exact h.reportPosition _ _ _ hs
    · exact hs
  case takeScan =>
    injection ht with ht; subst ht
    refine h.take _ _ _ _ (fun s hs => ?_) hs
    split
    · exact h.serveTake _ _ hs
    · exact h.scanReport _ _ _ _ hs
  case returnScan =>
    injection ht with ht; subst ht
    refine h.take _ _ _ _ (fun s hs => ?_) hs
    split
    · exact h.serveReturn _ _ hs
    · exact h.scanReport _ _ _ _ hs
  case wrongStationScan =>
    injection ht with ht; subst ht
    refine h.take _ _ _ _ (fun s hs => ?_) hs
    split
    · exact h.scanReport _ _ _ _ hs
    · exact h.scanReport _ _ _ _ hs
  case arrive =>
    injection ht with ht; subst ht
    exact h.take _ _ _ _ (fun s hs => h.hatchFrame _ _ _ _ _ (fun w _ hw => hw)
      (fun w _ _ hw => h.serveArrive _ _ _ _ hw) hs) hs
  case caseReport =>
    injection ht with ht; subst ht
    exact h.take _ _ _ _ (fun s hs => h.hatchFrame _ _ _ _ _ (fun w _ hw => hw)
      (fun w _ _ hw => h.serveCase _ _ _ hw) hs) hs
  case accept =>
    injection ht with ht; subst ht
    exact h.take _ _ _ _ (fun s hs => h.hatchFrame _ _ _ _ _ (fun w _ hw => hw)
      (fun w _ _ hw => h.serveFlag _ _ _ _ _ hw) hs) hs
  case confirm =>
    injection ht with ht; subst ht
    exact h.take _ _ _ _ (fun s hs => h.hatchFrame _ _ _ _ _ (fun w _ hw => hw)
      (fun w _ _ hw => h.serveFlag _ _ _ _ _ hw) hs) hs
  case scanHandover =>
    injection ht with ht; subst ht
    exact h.take _ _ _ _ (fun s hs => h.hatchFrame _ _ _ _ _ (fun w _ hw => hw)
      (fun w _ _ hw => h.serveItem _ _ _ _ hw) hs) hs
  case scanReceive =>
    injection ht with ht; subst ht
    exact h.take _ _ _ _ (fun s hs => h.hatchFrame _ _ _ _ _ (fun w _ hw => hw)
      (fun w _ _ hw => h.serveItem _ _ _ _ hw) hs) hs
  case doneStep =>
    injection ht with ht; subst ht
    exact h.take _ _ _ _ (fun s hs => h.hatchFrame _ _ _ _ _ (fun w _ hw => hw)
      (fun w _ _ hw => h.serveDone _ _ _ hw) hs) hs
  case zoneReport => injection ht with ht; subst ht; exact h.takeEvent _ _ (fun _ hs => h.takeZoneReport _ _ hs) hs
  case secondTick => injection ht with ht; subst ht; exact h.secondTick _ hs
  case minuteTick =>
    injection ht with ht; subst ht
    split
    · exact hs
    · exact h.secondTick _ hs
  case minuteScanVisit => injection ht with ht; subst ht; exact h.minuteScanVisit hs
  case agentSweepVisit => injection ht with ht; subst ht; exact h.agentSweepVisit hs
  case releaseTimerExpiry =>
    injection ht with ht; subst ht; exact h.takeEvent _ _ (fun s hs => hr _ s rfl hs) hs
  case stepTimerExpiry =>
    injection ht with ht; subst ht; exact h.takeEvent _ _ (fun _ hs => h.stepTimerExpired _ hs) hs
  case dwellTimerExpiry =>
    injection ht with ht; subst ht; exact h.takeEvent _ _ (fun _ hs => h.dwellTimerExpired _ hs) hs
  case supervisionTimerExpiry =>
    injection ht with ht; subst ht; exact h.takeEvent _ _ (fun _ hs => h.supervisionExpired hs) hs
  case retryTimerExpiry =>
    injection ht with ht; subst ht; exact h.takeEvent _ _ (fun _ hs => h.retryExpired hs) hs
  case alertPulseExpiry => injection ht with ht; subst ht; exact h.pulsePasses hs
  case activateCheckComplete => injection ht with ht; subst ht; exact h.checkComplete _ hs
  case storeBurnComplete => injection ht with ht; subst ht; exact h.burnComplete hs
  all_goals (injection ht with ht; subst ht; refine h.serve _ _ _ _ (fun s hs => ?_) hs)
  case malformedRequest => exact h.reply _ _ _ _ hs
  case ident => exact h.reply _ _ _ _ hs
  case read => exact h.readReply _ _ hs
  case tableOpen => exact h.tableOpenRequest _ _ _ hs
  case tableWrite => exact h.tableWriteRequest _ _ _ hs
  case tableRead => exact h.tableReadRequest _ _ hs
  case activate => exact h.activateRequest _ _ hs
  case deactivate => exact h.deactivateRequest _ hs
  case restart => exact h.restartRequest _ hs
  case zoneProfile => exact h.zoneProfileRequest _ _ _ hs
  case zoneClearExposure => exact h.zoneClearExposureRequest _ _ hs
  case zoneFireReset => exact h.zoneFireResetRequest _ _ hs
  case zoneRelease => exact h.zoneReleaseRequest _ _ hs
  case zoneSilence => exact h.zoneSilenceRequest _ _ hs
  case mediaEnter => exact h.mediaEnter _ _ _ _ _ hs
  case mediaDelete => exact h.mediaDelete _ _ hs
  case mediaMove => exact h.mediaMove _ _ _ hs
  case mediaHoldSet => exact h.mediaHoldSet _ _ _ hs
  case mediaHoldClear => exact h.mediaHoldClear _ _ _ hs
  case mediaQuery => exact h.mediaQuery _ _ hs
  case consign => exact h.consignRequest _ _ _ _ _ _ hs
  case consignCancel => exact h.consignCancelRequest _ _ hs
  case clearAlerts => exact h.clearAlertsRequest _ _ hs
  case setMask => exact h.setMaskRequest _ _ _ hs
  case resume => exact h.resumeRequest _ hs
  case storeBurn => exact h.storeBurnRequest _ _ _ hs
  case setLive => exact h.setLiveRequest _ _ _ hs

end Keeps

/-- `Keeps` with the one place where a RELEASE frame is queued (R90). -/
structure KeepsRelease (P : State → Prop) : Prop extends Keeps P where
  releaseFrame : ∀ s dst z, P s → P { s with fsp := { s.fsp with
    urgent := State.urgentPut s.fsp.urgent ⟨dst, s.mga.live.ownAddress, Kind.release, enc1 z⟩ } }

namespace KeepsRelease

variable {P : State → Prop} (h : KeepsRelease P) {s : State}
include h

theorem enterReleased (z : Nat) (hs : P s) : P (s.enterReleased z) := by
  unfold State.enterReleased
  extract_lets before src s1 s2 s3 s4
  have h1 : P s1 := h.fire _ _ _ hs
  have h2 : P s2 := h.soundZone _ _ (foldl_keeps _ (fun t d ht => h.arbitrateIfIdle (h.releaseFrame t d z ht)) _ _ h1)
  exact h.tellFire _ _ (h.sweepZone _ (h.raiseCondition _ _ (h.lower _ _ (h.offerNotice _ h2))))

theorem releaseExpired (z : Nat) (hs : P s) : P (State.releaseExpired z s) := by
  unfold State.releaseExpired
  split
  · exact h.enterReleased _ (h.releaseTimer _ _ _ hs)
  · exact h.releaseTimer _ _ _ hs

/-- A property kept by the updates of `KeepsRelease` is kept by every command. -/
theorem exec (c : Instr) {t : State} (hs : P s) (ht : Machine.exec c s = .next t) : P t :=
  h.toKeeps.exec c (fun _ _ _ hs => h.releaseExpired _ hs) hs ht

/-- One kept also by taking a command from the queue and by a millisecond of the pulse is kept by every step. -/
theorem step {t : State} (hq : ∀ s q, P s → P { s with pending := q }) (hm : ∀ s, P s → P s.pulseMillisecond) (hs : P s)
    (ht : Machine.step s = .next t) : P t := by
  unfold Machine.step at ht
  split at ht
  · exact h.exec _ (hq _ _ hs) ht
  · split at ht
    · exact h.exec _ hs ht
    · injection ht with ht; subst ht; exact hm _ hs

end KeepsRelease

/-- Every command has a next state: no meaning stops. -/
theorem exec_next (c : Instr) (s : State) : ∃ t, exec c s = .next t := by
  cases c <;> exact ⟨_, rfl⟩

end Sys2Proof.Machine
end

