-- ==== Sys2Proof/Laws/Frames.lean ====
section
/-!
SUPPORT. The bytes of a frame by their place, and what a port does with bytes: those of exactly one complete frame, those
that complete none, and those that complete a frame and go on.
-/
namespace Sys2Proof.Machine

theorem byteOf_toNat {n : Nat} (h : n < 256) : (byteOf n).toNat = n := by simp [byteOf, Nat.mod_eq_of_lt h]

theorem Frame.body_length (f : Frame) : f.body.length = 4 + f.payload.length := by
  simp [Frame.body, enc1]
  omega

theorem Frame.image_length (f : Frame) : f.image.length = 4 + f.payload.length + 2 := by
  simp [Frame.image, Frame.body_length, enc2]

theorem Frame.image_cons (f : Frame) : f.image = byteOf f.dst :: byteOf f.src :: byteOf f.kind ::
    byteOf f.payload.length :: (f.payload ++ enc2 (checkValue f.body).toNat) := by
  simp [Frame.image, Frame.body, enc1]

theorem Frame.body_drop (f : Frame) : f.body.drop 4 = f.payload := by simp [Frame.body, enc1]

theorem Frame.image_take (f : Frame) : f.image.take (4 + f.payload.length) = f.body := by
  rw [Frame.image, List.take_append_of_le_length (Nat.le_of_eq (by rw [Frame.body_length])),
    List.take_of_length_le (Nat.le_of_eq (by rw [Frame.body_length]))]

theorem Frame.image_drop (f : Frame) : f.image.drop (4 + f.payload.length) = enc2 (checkValue f.body).toNat := by
  rw [Frame.image, List.drop_append_of_le_length (Nat.le_of_eq (by rw [Frame.body_length])),
    List.drop_of_length_le (Nat.le_of_eq (by rw [Frame.body_length]))]
  rfl

theorem completeLength_nil : completeLength [] = none := rfl

theorem IsComplete.pos {b : List Byte} (h : IsComplete b) : 0 < b.length := by
  unfold IsComplete completeLength at h
  split at h
  · cases h
  · omega

/-- The site port, holding no partial frame, takes the bytes of one complete frame. -/
theorem siteBytes_one (s : State) (b : List Byte) (hr : s.slp.rx = []) (h : IsComplete b)
    (hk : (s.siteFrameDone b).slp.rx = []) : s.siteBytes b = s.siteFrameDone b := by
  unfold State.siteBytes
  have e1 : { s with slp := { s.slp with rx := [] } } = s := by
    obtain ⟨⟨rx, q, tx⟩, _⟩ := s
    simp at hr
    subst hr
    rfl
  have hl := h.pos
  obtain ⟨n, hn⟩ : ∃ n, s.slp.rx.length + b.length = n + 1 := ⟨b.length - 1, by simp [hr]; omega⟩
  rw [hn]
  simp only [State.siteAssemble, hr, List.nil_append]
  rw [show completeLength b = some b.length from h]
  simp only [List.drop_length, List.take_length]
  rw [e1]
  cases n with
  | zero => rfl
  | succ n => simp only [State.siteAssemble, hk, completeLength_nil]

/-- The field port takes the bytes that complete exactly one frame. -/
theorem fieldBytes_one (s : State) (b : List Byte) (hb : IsComplete (s.fsp.rx ++ b)) (m : Bool)
    (hm : m = if s.fsp.rx.isEmpty then !b.isEmpty && s.awaiting else s.fsp.rxInWindow)
    (hk : (State.fieldFrameDone { s with fsp := { s.fsp with rx := [], rxInWindow := m } } m (s.fsp.rx ++ b)).fsp.rx
      = []) :
    s.fieldBytes b
      = (State.fieldFrameDone { s with fsp := { s.fsp with rx := [], rxInWindow := m } } m (s.fsp.rx ++ b)).inWindow
          false := by
  unfold State.fieldBytes
  have hl := hb.pos
  rw [List.length_append] at hl
  obtain ⟨n, hn⟩ : ∃ n, s.fsp.rx.length + b.length = n + 1 := ⟨s.fsp.rx.length + b.length - 1, by omega⟩
  rw [hn]
  dsimp only
  rw [← hm]
  simp only [State.fieldAssemble]
  rw [show completeLength (s.fsp.rx ++ b) = some (s.fsp.rx ++ b).length from hb]
  simp only [List.drop_length, List.take_length]
  generalize hv : State.fieldFrameDone _ _ _ = v at hk ⊢
  cases n with
  | zero => simp [State.fieldAssemble, hk, State.inWindow]
  | succ n => simp [State.fieldAssemble, hk, completeLength_nil, State.inWindow]

theorem completeLength_pos {b : List Byte} {n : Nat} (h : completeLength b = some n) : 0 < n ∧ n ≤ b.length := by
  unfold completeLength at h
  split at h
  · cases h
  · dsimp only at h
    split at h
    · cases h; omega
    · cases h

/-- Bytes after a complete frame do not change where it ends. -/
theorem completeLength_append {b : List Byte} (h : IsComplete b) (rest : List Byte) :
    completeLength (b ++ rest) = some b.length := by
  have h4 : ¬ b.length < 4 := fun hl => by simp [IsComplete, completeLength, hl] at h
  have e : nat1 (b ++ rest) 3 = nat1 b 3 := by
    unfold nat1 byteAt
    rw [List.getD_eq_getElem?_getD, List.getD_eq_getElem?_getD, List.getElem?_append_left (by omega)]
  have hb := h
  simp only [IsComplete, completeLength, h4, if_false] at hb
  split at hb
  · simp only [Option.some.injEq] at hb
    unfold completeLength
    rw [if_neg (by rw [List.length_append]; omega)]
    simp only [e]
    rw [if_pos (by rw [List.length_append]; omega), hb]
  · cases hb

/-- Fewer bytes than their frame needs complete nothing (R3). -/
theorem completeLength_none {b : List Byte} (h : b.length < 4 ∨ b.length < 6 + nat1 b 3) : completeLength b = none := by
  unfold completeLength
  split
  · rfl
  · dsimp only
    rw [if_neg (by omega)]

theorem siteFrameDone_rx (s : State) (b : List Byte) : (s.siteFrameDone b).slp.rx = s.slp.rx :=
  ((jobs_keep s).siteFrameDone b (JobsLeave.rfl' s)).siteRx

theorem fieldFrameDone_rx (s : State) (m : Bool) (b : List Byte) : (s.fieldFrameDone m b).fsp.rx = s.fsp.rx :=
  ((jobs_keep s).fieldFrameDone m b (JobsLeave.rfl' s)).fieldRx

theorem siteAssemble_fuel (n : Nat) : ∀ (m : Nat) (s : State), s.slp.rx.length ≤ n → s.slp.rx.length ≤ m →
    State.siteAssemble n s = State.siteAssemble m s := by
  induction n with
  | zero =>
    intro m s hn _
    have hr : s.slp.rx = [] := List.length_eq_zero_iff.mp (by omega)
    cases m with
    | zero => rfl
    | succ m => simp [State.siteAssemble, hr, completeLength_nil]
  | succ n ih =>
    intro m s hn hm
    cases m with
    | zero =>
      have hr : s.slp.rx = [] := List.length_eq_zero_iff.mp (by omega)
      simp [State.siteAssemble, hr, completeLength_nil]
    | succ m =>
      simp only [State.siteAssemble]
      cases hc : completeLength s.slp.rx with
      | none => rfl
      | some k =>
        have hk := completeLength_pos hc
        exact ih m _ (by simp [siteFrameDone_rx]; omega) (by simp [siteFrameDone_rx]; omega)

/-- The site port holds bytes that complete no frame. -/
theorem siteBytes_held (s : State) (b : List Byte) (h : completeLength (s.slp.rx ++ b) = none) :
    s.siteBytes b = { s with slp := { s.slp with rx := s.slp.rx ++ b } } := by
  unfold State.siteBytes
  cases s.slp.rx.length + b.length with
  | zero => rfl
  | succ n => simp only [State.siteAssemble, h]

/-- The site port takes the first frame the held bytes complete, and goes on with the rest. -/
theorem siteBytes_split (s : State) (b frame rest : List Byte) (h : s.slp.rx ++ b = frame ++ rest)
    (hf : IsComplete frame) :
    s.siteBytes b = (State.siteFrameDone { s with slp := { s.slp with rx := rest } } frame).siteBytes [] := by
  have hp := hf.pos
  have hl : s.slp.rx.length + b.length = frame.length + rest.length := by
    rw [← List.length_append, h, List.length_append]
  unfold State.siteBytes
  obtain ⟨n, hn⟩ : ∃ n, s.slp.rx.length + b.length = n + 1 := ⟨frame.length + rest.length - 1, by omega⟩
  rw [hn]
  simp only [State.siteAssemble, h]
  rw [completeLength_append hf]
  simp only [List.drop_left, List.take_left]
  generalize hu : State.siteFrameDone _ _ = u
  have hr : u.slp.rx = rest := by rw [← hu, siteFrameDone_rx]
  simp only [List.append_nil, List.length_nil, Nat.add_zero]
  exact siteAssemble_fuel _ _ _ (by rw [hr]; omega) (Nat.le_refl _)

theorem fieldAssemble_fuel (n : Nat) : ∀ (m : Nat) (s : State), s.fsp.rx.length ≤ n → s.fsp.rx.length ≤ m →
    State.fieldAssemble n s = State.fieldAssemble m s := by
  induction n with
  | zero =>
    intro m s hn _
    have hr : s.fsp.rx = [] := List.length_eq_zero_iff.mp (by omega)
    cases m with
    | zero => rfl
    | succ m => simp [State.fieldAssemble, hr, completeLength_nil]
  | succ n ih =>
    intro m s hn hm
    cases m with
    | zero =>
      have hr : s.fsp.rx = [] := List.length_eq_zero_iff.mp (by omega)
      simp [State.fieldAssemble, hr, completeLength_nil]
    | succ m =>
      simp only [State.fieldAssemble]
      cases hc : completeLength s.fsp.rx with
      | none => rfl
      | some k =>
        have hk := completeLength_pos hc
        exact ih m _ (by simp [fieldFrameDone_rx]; omega) (by simp [fieldFrameDone_rx]; omega)

/-- The mark of the field receiver's partial frame once bytes have arrived: a frame is the window's if its first byte
arrived in it (R10). -/
abbrev State.markAfter (s : State) (b : List Byte) : Bool :=
  if s.fsp.rx.isEmpty then !b.isEmpty && s.awaiting else s.fsp.rxInWindow

/-- The field port holds bytes that complete no frame. -/
theorem fieldBytes_held (s : State) (b : List Byte) (h : completeLength (s.fsp.rx ++ b) = none) :
    s.fieldBytes b = { s with fsp := { s.fsp with rx := s.fsp.rx ++ b, rxInWindow := s.markAfter b } } := by
  unfold State.fieldBytes
  cases s.fsp.rx.length + b.length with
  | zero => rfl
  | succ n => simp only [State.fieldAssemble, h]

/-- The field port takes the first frame the held bytes complete, and goes on with the rest. -/
theorem fieldBytes_split (s : State) (b frame rest : List Byte) (h : s.fsp.rx ++ b = frame ++ rest)
    (hf : IsComplete frame) :
    let u := State.fieldFrameDone { s with fsp := { s.fsp with rx := rest, rxInWindow := s.markAfter b } } (s.markAfter b)
      frame
    s.fieldBytes b = (u.inWindow (!rest.isEmpty && u.awaiting)).fieldBytes [] := by
  have hp := hf.pos
  have hl : s.fsp.rx.length + b.length = frame.length + rest.length := by
    rw [← List.length_append, h, List.length_append]
  intro u
  have hr : u.fsp.rx = rest := fieldFrameDone_rx _ _ _
  rw [State.fieldBytes]
  obtain ⟨n, hn⟩ : ∃ n, s.fsp.rx.length + b.length = n + 1 := ⟨frame.length + rest.length - 1, by omega⟩
  rw [hn]
  simp only [State.fieldAssemble, h]
  rw [completeLength_append hf]
  simp only [List.drop_left, List.take_left]
  change State.fieldAssemble n (u.inWindow (!u.fsp.rx.isEmpty && u.awaiting)) = _
  rw [hr]
  have e : (u.inWindow (!rest.isEmpty && u.awaiting)).fieldBytes []
      = State.fieldAssemble rest.length (u.inWindow (!rest.isEmpty && u.awaiting)) := by
    unfold State.fieldBytes
    have hr' : (u.inWindow (!rest.isEmpty && u.awaiting)).fsp.rx = rest := hr
    simp only [hr', List.append_nil, List.length_nil, Nat.add_zero]
    congr 1
    cases rest with
    | nil =>
      have : (u.inWindow (!([] : List Byte).isEmpty && u.awaiting)).fsp.rx = [] := hr
      simp [State.inWindow, hr]
    | cons x xs => simp [State.inWindow, hr]
  rw [e]
  exact fieldAssemble_fuel _ _ _ (by change u.fsp.rx.length ≤ _; rw [hr]; omega)
    (Nat.le_of_eq (congrArg List.length hr))

theorem choosePoll_awaiting (s : State) : s.choosePoll.awaiting = false := by
  unfold State.choosePoll
  split <;> rfl

theorem takeOrdinary_awaiting (l : List OrdItem) : ∀ s, (State.takeOrdinary l s).awaiting = false := by
  induction l with
  | nil => intro s; exact choosePoll_awaiting _
  | cons it l ih =>
    intro s
    simp only [State.takeOrdinary]
    split
    · rfl
    · exact ih _

/-- No window is open after the arbiter's choice. -/
theorem arbitrate_awaiting (s : State) : s.arbitrate.awaiting = false := by
  unfold State.arbitrate
  split
  · rfl
  · split
    · exact takeOrdinary_awaiting _ _
    · exact choosePoll_awaiting _

end Sys2Proof.Machine
end

