-- ==== Sys2Proof/Laws/Commands.lean ====
section
/-!
SUPPORT. What surrounds the meanings of frames, requests and internal events, said once: where a command is carried out, it
is its own effect on the state in which the command has been taken.
-/
namespace Sys2Proof.Machine

/-- The part of the state a request's taking leaves. -/
@[simp] theorem requested_fields (s : State) (c : Instr) : (s.requested c).slp = s.slp ∧ (s.requested c).fsp = s.fsp ∧
    (s.requested c).cgt = s.cgt ∧ (s.requested c).cls = s.cls ∧ (s.requested c).frs = s.frs ∧ (s.requested c).csu = s.csu ∧
    (s.requested c).hoc = s.hoc ∧ (s.requested c).alb = s.alb ∧ (s.requested c).mga = s.mga ∧
    (s.requested c).pending = s.pending ∧ (s.requested c).handed = s.handed.erase c ∧
    (s.requested c).tmb.secondCount = s.tmb.secondCount ∧ (s.requested c).tmb.minuteClock = s.tmb.minuteClock ∧
    (s.requested c).tmb.release = s.tmb.release ∧ (s.requested c).tmb.step = s.tmb.step ∧
    (s.requested c).tmb.dwell = s.tmb.dwell ∧ (s.requested c).tmb.retry = s.tmb.retry ∧
    (s.requested c).tmb.pulse = s.tmb.pulse := by
  unfold State.requested State.requestTaken
  split <;> simp [State.takeHanded, State.setSupervision]

/-- Every reading of the state but of the supervision timer and the handed events is as before a request was taken. -/
theorem requested_accessors (s : State) (c : Instr) : (s.requested c).active = s.active ∧ (s.requested c).now = s.now ∧
    (s.requested c).zone = s.zone ∧ (s.requested c).climate = s.climate ∧ (s.requested c).profile = s.profile ∧
    (s.requested c).fire = s.fire ∧ (s.requested c).fireState = s.fireState ∧ (s.requested c).mediaAt = s.mediaAt ∧
    (s.requested c).mediaById = s.mediaById ∧ (s.requested c).lowestFreeSlot = s.lowestFreeSlot ∧
    (s.requested c).hatch = s.hatch ∧ (s.requested c).hatchRuntime = s.hatchRuntime ∧
    (s.requested c).consignment = s.consignment ∧ (s.requested c).alertRec = s.alertRec ∧
    (s.requested c).stationList = s.stationList ∧ (s.requested c).station = s.station ∧
    (s.requested c).siteFull = s.siteFull := by
  obtain ⟨h1, _, h3, h4, h5, h6, h7, h8, h9, _, _, _, h13, _⟩ := requested_fields s c
  refine ⟨?_, h13, ?_, ?_, ?_, ?_, ?_, ?_, ?_, ?_, ?_, ?_, ?_, ?_, ?_, ?_, ?_⟩
  all_goals
    first
      | simp only [State.active, State.siteFull, State.stationList, h1, h3, h9]
      | (funext x
         simp only [State.zone, State.climate, State.profile, State.fire, State.fireState, State.mediaAt, State.mediaById,
           State.hatch, State.hatchRuntime, State.consignment, State.alertRec, State.station, h3, h4, h5, h6, h7, h8])
      | simp only [State.lowestFreeSlot, h6]

/-- A request is carried out on the state in which it has been taken. -/
theorem serve_eq {s : State} (h : s.ready) (c : Instr) (kind : Nat) (tag : Byte) (act : State → State) :
    s.serve c kind tag act = act (s.requested c) := by
  have h1 : (s.takeHanded c).requestTaken.mga = s.mga := (requested_fields s c).2.2.2.2.2.2.2.2.1
  unfold State.serve
  simp only [h1, h.1, h.2, Option.isSome_none, Bool.false_eq_true, if_false]
  rfl

/-- A frame that reaches its job block is acted on. -/
theorem take_eq {s : State} {e : Nat} {fits : StationEntry → Bool} (h : s.serves e) (hf : fits (s.station e) = true)
    (c : Instr) (act : State → State) : s.take c e fits act = act (s.takeHanded c) := by
  have h1 : (s.takeHanded c).active = s.active := rfl
  have h2 : (s.takeHanded c).station e = s.station e := rfl
  unfold State.take
  simp [h1, h2, h.1, h.2, hf]

/-- A handed event is taken. -/
theorem takeEvent_eq {s : State} {c : Instr} (h : c ∈ s.handed) (act : State → State) :
    s.takeEvent c act = act (s.takeHanded c) := by
  unfold State.takeEvent
  rw [if_pos (by simpa [State.isHanded] using h)]

end Sys2Proof.Machine
end

