-- ==== Sys2Proof/Laws/Owners.lean ====
section
/-!
SUPPORT. What each owner does when it prepares or clears its runtime, at an accepted ACTIVATE and DEACTIVATE (R177, R178): one
theorem per operation that says everything it changes, over relations that say what it leaves.
-/
namespace Sys2Proof.Machine

/-- What no owner touches at ACTIVATE or DEACTIVATE: the segment, custody, the Management Agent, the clock, the timers of
the part and what the site receiver holds; alerts only as `AlertsPass` says. -/
structure KeptOutside (s t : State) : Prop where
  fsp : t.fsp = s.fsp
  csu : t.csu = s.csu
  mga : t.mga = s.mga
  secondCount : t.tmb.secondCount = s.tmb.secondCount
  minuteClock : t.tmb.minuteClock = s.tmb.minuteClock
  supervision : t.tmb.supervision = s.tmb.supervision
  retry : t.tmb.retry = s.tmb.retry
  pending : t.pending = s.pending
  rx : t.slp.rx = s.slp.rx
  alerts : AlertsPass s t

theorem KeptOutside.trans {s t u : State} (a : KeptOutside s t) (b : KeptOutside t u) : KeptOutside s u := by
  obtain ⟨h1, h2, h3, h4, h5, h6, h7, h8, h9, h10⟩ := a
  obtain ⟨g1, g2, g3, g4, g5, g6, g7, g8, g9, g10⟩ := b
  exact ⟨g1.trans h1, g2.trans h2, g3.trans h3, g4.trans h4, g5.trans h5, g6.trans h6, g7.trans h7, g8.trans h8,
      g9.trans h9, h10.trans g10⟩

theorem KeptOutside.rfl' (s : State) : KeptOutside s s :=
    ⟨rfl, rfl, rfl, rfl, rfl, rfl, rfl, rfl, rfl, AlertsPass.rfl' s⟩

theorem KeptOutside.of {s t : State} (r : Reported s t) (a : AlertsPass s t) : KeptOutside s t :=
  ⟨r.fsp, r.csu, r.mga, r.secondCount, r.minuteClock, r.supervision, r.retry, r.pending, r.rx, a⟩

/-- A source of the kind with this code is present. -/
abbrev IsPresent (s : State) (j : Nat) (x : Nat) : Prop := x ∈ (s.alertRec j).present

/-- Every latch, count and mask as before. -/
abbrev SameLatches (s t : State) : Prop := ∀ k, (t.alertRec k).latched = (s.alertRec k).latched
    ∧ (t.alertRec k).count = (s.alertRec k).count ∧ (t.alertRec k).masked = (s.alertRec k).masked

theorem lower_sameLatches (s : State) (k : AlertKind) (x : Nat) : SameLatches s (s.lower k x) := by
  intro j
  unfold State.lower
  dsimp only
  split
  · have e : ∀ p, (((s.setPresent k p).heldAfter k).alertRec j) = (s.setPresent k p).alertRec j := by
      intro p; unfold State.heldAfter; split <;> rfl
    rw [e]; simp only [State.setPresent, State.alertRec_setAlertRec]
    split
    · rename_i e; subst e; exact ⟨rfl, rfl, rfl⟩
    · exact ⟨rfl, rfl, rfl⟩
  · refine ⟨rfl, rfl, rfl⟩

theorem SameLatches.trans {s t u : State} (a : SameLatches s t) (b : SameLatches t u) : SameLatches s u :=
    fun k => ⟨(b k).1.trans (a k).1, (b k).2.1.trans (a k).2.1, (b k).2.2.trans (a k).2.2⟩

theorem foldl_lower_sameLatches (k : AlertKind) (l : List Nat) : ∀ s : State,
    SameLatches s (l.foldl (fun u x => u.lower k x) s) := by
  induction l with
  | nil => intro s j; exact ⟨rfl, rfl, rfl⟩
  | cons a l ih => intro s; exact SameLatches.trans (lower_sameLatches s k a) (ih _)

theorem lowerAll_sameLatches (s : State) (k : AlertKind) : SameLatches s (s.lowerAll k) :=
    foldl_lower_sameLatches k _ s

theorem lowerAll_reported (s : State) (k : AlertKind) : Reported s (s.lowerAll k) :=
    (reported_keeps s).lowerAll k (Reported.rfl' s)

theorem SameLatches.same {s t : State} (h : t.alb.alerts = s.alb.alerts) : SameLatches s t := by
  intro k; simp only [State.alertRec, h, and_self]

/-! ### The stations -/

/-- STATION_SILENT is lowered for the addresses of the silent runtime records in a list (R12). -/
theorem foldl_lowerSilent_spec (a : Nat → Nat) (l : List (Nat × StationRuntime)) : ∀ s : State,
   let t := l.foldl (fun s' p => if p.2.silent then s'.lower .stationSilent (a p.1) else s') s
   Reported s t ∧ AlertsPass s t ∧ t.slp = s.slp ∧ SameLatches s t ∧ ∀ j x, IsPresent t j x ↔ IsPresent s j x
       ∧ ¬ (j = AlertKind.stationSilent.code ∧ ∃ p ∈ l, p.2.silent = true ∧ a p.1 = x) := by
  induction l with
  | nil => intro s; exact ⟨Reported.rfl' s, AlertsPass.rfl' s, rfl, fun _ => ⟨rfl, rfl, rfl⟩, fun j x => by simp⟩
  | cons p l ih =>
    intro s
    simp only [List.foldl_cons]
    by_cases hp : p.2.silent = true
    · simp only [hp, if_true]
      obtain ⟨h1, h2, h3, h4, h5⟩ := ih (s.lower .stationSilent (a p.1))
      obtain ⟨⟨g1, g2⟩, g3⟩ := lower_spec s .stationSilent (a p.1)
      refine ⟨(lower_reported _ _ _).trans h1, g1.trans h2, h3.trans g2,
          SameLatches.trans (lower_sameLatches _ _ _) h4, fun j x => ?_⟩
      rw [show IsPresent _ j x ↔ _ from h5 j x, show IsPresent _ j x ↔ _ from g3 j x]
      constructor
      · rintro ⟨⟨q1, q2⟩, q3⟩
        refine ⟨q1, ?_⟩
        rintro ⟨e, y, hy, hy2, hy3⟩
        rcases List.mem_cons.1 hy with e2 | e2
        · subst e2; exact q2 ⟨e, hy3.symm⟩
        · exact q3 ⟨e, y, e2, hy2, hy3⟩
      · rintro ⟨q1, q2⟩
        refine ⟨⟨q1, fun ⟨e, e2⟩ => q2 ⟨e, p, List.mem_cons_self, hp, e2.symm⟩⟩, ?_⟩
        rintro ⟨e, y, hy, hy2, hy3⟩
        exact q2 ⟨e, y, List.mem_cons_of_mem _ hy, hy2, hy3⟩
    · rw [if_neg hp]
      obtain ⟨h1, h2, h3, h4, h5⟩ := ih s
      refine ⟨h1, h2, h3, h4, fun j x => ?_⟩
      rw [show IsPresent _ j x ↔ _ from h5 j x]
      constructor
      · rintro ⟨q1, q3⟩
        refine ⟨q1, ?_⟩
        rintro ⟨e, y, hy, hy2, hy3⟩
        rcases List.mem_cons.1 hy with e2 | e2
        · subst e2; exact hp hy2
        · exact q3 ⟨e, y, e2, hy2, hy3⟩
      · rintro ⟨q1, q2⟩
        refine ⟨q1, ?_⟩
        rintro ⟨e, y, hy, hy2, hy3⟩
        exact q2 ⟨e, y, List.mem_cons_of_mem _ hy, hy2, hy3⟩

/-- A canonical table reads as each of its entries. -/
theorem Tab.read_of_mem {α : Type} [DecidableEq α] (d : α) (t : Tab α) : ∀ lo, Tab.wfFrom d lo t = true
    → ∀ k v, (k, v) ∈ t → Tab.read d t k = v ∧ lo ≤ k := by
  induction t with
  | nil => intro lo h k v hm; cases hm
  | cons p t ih =>
    obtain ⟨j, w⟩ := p
    intro lo h k v hm
    simp only [Tab.wfFrom, Bool.and_eq_true, decide_eq_true_eq] at h
    rcases List.mem_cons.1 hm with e | e
    · cases e; exact ⟨by simp [Tab.read], h.1.1⟩
    · obtain ⟨h1, h2⟩ := ih _ h.2 k v e
      refine ⟨?_, by omega⟩
      have : j ≠ k := by omega
      simp [Tab.read, this, h1]

/-- A table reads as its default or as one of its entries. -/
theorem Tab.default_or_mem {α : Type} (d : α) (t : Tab α) (k : Nat) : Tab.read d t k = d
    ∨ (k, Tab.read d t k) ∈ t := by
  induction t with
  | nil => left; rfl
  | cons p t ih =>
    obtain ⟨j, w⟩ := p
    by_cases h : j = k
    · subst h; right; simp [Tab.read]
    · simp only [Tab.read, h, if_false]
      rcases ih with ih | ih
      · exact .inl ih
      · exact .inr (List.mem_cons_of_mem _ ih)

/-- What the restart of the stations does (R12, R20). -/
structure StationsRestarted (s t : State) : Prop where
  outside : KeptOutside s t
  cgt : t.cgt = { s.cgt with runtime := [] }
  cls : t.cls = s.cls
  frs : t.frs = s.frs
  hoc : t.hoc = s.hoc
  release : t.tmb.release = s.tmb.release
  step : t.tmb.step = s.tmb.step
  dwell : t.tmb.dwell = s.tmb.dwell
  handed : t.handed = s.handed
  slp : t.slp = s.slp
  pulse : t.tmb.pulse = s.tmb.pulse
  latches : SameLatches s t
  present : ∀ j x, j ≠ AlertKind.stationSilent.code → (IsPresent t j x ↔ IsPresent s j x)
  stationSilent : Tab.wf .fresh s.cgt.runtime = true → ∀ x, IsPresent t AlertKind.stationSilent.code x
      ↔ IsPresent s AlertKind.stationSilent.code x ∧ ∀ i, (s.stationRuntime i).silent = true → (s.station i).addr ≠ x

theorem lower_tmb (s : State) (k : AlertKind) (x : Nat) : (s.lower k x).tmb = s.tmb := by
  unfold State.lower; dsimp only; split
  · unfold State.heldAfter; split <;> rfl
  · rfl

theorem foldl_sameTmb {α : Type} (f : State → α
    → State) (hf : ∀ s a, (f s a).tmb = s.tmb) (l : List α) : ∀ s, (l.foldl f s).tmb = s.tmb := by
  induction l with
  | nil => intro s; rfl
  | cons a l ih => intro s; exact (ih _).trans (hf s a)

theorem lowerAll_tmb (s : State) (k : AlertKind) : (s.lowerAll k).tmb = s.tmb :=
    foldl_sameTmb _ (fun s x => lower_tmb s k x) _ s

theorem restartStations_spec (s : State) : StationsRestarted s s.restartStations := by
  unfold State.restartStations
  obtain ⟨h1, h2, h3, h4, h5⟩ := foldl_lowerSilent_spec (fun i => (s.station i).addr) s.cgt.runtime s
  have hp : (s.cgt.runtime.foldl (fun s' p => if p.2.silent then s'.lower .stationSilent (s.station p.1).addr else
      s') s).tmb = s.tmb := foldl_sameTmb _ (fun u p => by split; exact lower_tmb _ _ _; rfl) _ s
  generalize List.foldl _ s s.cgt.runtime = t at h1 h2 h3 h4 h5 hp ⊢
  refine ⟨⟨h1.fsp, h1.csu, h1.mga, h1.secondCount, h1.minuteClock, h1.supervision, h1.retry, h1.pending, h1.rx,
      h2.trans (AlertsPass.same rfl rfl)⟩, ?_, h1.cls, h1.frs, h1.hoc, h1.release, h1.step, h1.dwell, h1.handed, h3,
          ?_, h4, ?_, ?_⟩
  · show { t.cgt with runtime := [] } = _; rw [h1.cgt]
  · show t.tmb.pulse = _; rw [hp]
  · intro j x hj
    show IsPresent t j x ↔ _
    rw [h5]; exact ⟨fun h => h.1, fun h => ⟨h, fun e => hj e.1⟩⟩
  · intro hw x
    show IsPresent t _ x ↔ _
    rw [h5]
    constructor
    · rintro ⟨q1, q2⟩
      refine ⟨q1, fun i hi e => q2 ⟨rfl, ?_⟩⟩
      rcases Tab.default_or_mem StationRuntime.fresh s.cgt.runtime i with h | h
      · have hh : (s.stationRuntime i) = StationRuntime.fresh := h
        rw [hh] at hi; cases hi
      · exact ⟨_, h, hi, e⟩
    · rintro ⟨q1, q2⟩
      refine ⟨q1, ?_⟩
      rintro ⟨_, p, hp, hs, he⟩
      obtain ⟨hr, _⟩ := Tab.read_of_mem StationRuntime.fresh s.cgt.runtime 0 hw p.1 p.2 hp
      refine q2 p.1 ?_ he
      show (Tab.read StationRuntime.fresh s.cgt.runtime p.1).silent = true
      rw [hr]; exact hs

/-! ### The Climate Supervisor -/

/-- Of the owners only the Climate Supervisor's runtime may differ. -/
structure ClimateOnly (s t : State) : Prop where
  outside : KeptOutside s t
  cgt : t.cgt = s.cgt
  frs : t.frs = s.frs
  hoc : t.hoc = s.hoc
  release : t.tmb.release = s.tmb.release
  step : t.tmb.step = s.tmb.step
  dwell : t.tmb.dwell = s.tmb.dwell
  handed : t.handed = s.handed
  probes : t.cls.probes = s.cls.probes
  profiles : t.cls.profiles = s.cls.profiles
  zones : t.cls.zones = s.cls.zones

theorem ClimateOnly.trans {s t u : State} (a : ClimateOnly s t) (b : ClimateOnly t u) : ClimateOnly s u := by
  obtain ⟨h0, h1, h2, h3, h4, h5, h6, h7, h8, h9, h10⟩ := a
  obtain ⟨g0, g1, g2, g3, g4, g5, g6, g7, g8, g9, g10⟩ := b
  exact ⟨h0.trans g0, g1.trans h1, g2.trans h2, g3.trans h3, g4.trans h4, g5.trans h5, g6.trans h6, g7.trans h7,
      g8.trans h8, g9.trans h9, g10.trans h10⟩

theorem ClimateOnly.of {s t : State} (r : Reported s t) (a : AlertsPass s t) : ClimateOnly s t :=
  ⟨KeptOutside.of r a, r.cgt, r.frs, r.hoc, r.release, r.step, r.dwell, r.handed, by rw [r.cls], by rw [r.cls],
      by rw [r.cls]⟩

theorem ClimateOnly.rfl' (s : State) : ClimateOnly s s := ClimateOnly.of (Reported.rfl' s) (AlertsPass.rfl' s)

theorem setClimate_only (s : State) (z : Nat) (c : ClimateRec) : ClimateOnly s (s.setClimate z c) :=
  ⟨⟨rfl, rfl, rfl, rfl, rfl, rfl, rfl, rfl, rfl, AlertsPass.same rfl rfl⟩, rfl, rfl, rfl, rfl, rfl, rfl, rfl, rfl,
      rfl, rfl⟩

/-- A climate record that starts again keeps its exposure and its EXPOSED flag (R66). -/
abbrev restartedRec (s : State) (z : Nat) : ClimateRec :=
    { ClimateRec.fresh with exposure := (s.climate z).exposure, exposed := (s.climate z).exposed }

theorem foldl_restartRec_spec (l : List Nat) : l.Nodup → ∀ s : State,
   let t := l.foldl (fun s z => s.setClimate z (restartedRec s z)) s
   ClimateOnly s t ∧ t.slp = s.slp ∧ t.alb = s.alb ∧ t.tmb = s.tmb ∧ t.cls.probeState = s.cls.probeState
       ∧ ∀ z, t.climate z = if z ∈ l then restartedRec s z else s.climate z := by
  induction l with
  | nil => intro _ s; exact ⟨ClimateOnly.rfl' s, rfl, rfl, rfl, rfl, by simp⟩
  | cons a l ih =>
    intro hn s
    rw [List.nodup_cons] at hn
    obtain ⟨h1, h2, h3, h3', h4, h5⟩ := ih hn.2 (s.setClimate a (restartedRec s a))
    refine ⟨(setClimate_only _ _ _).trans h1, h2, h3, h3', h4, fun z => ?_⟩
    simp only [List.foldl_cons]
    rw [h5]
    simp only [restartedRec, State.climate_setClimate]
    by_cases e : z = a
    · subst e; simp [hn.1]
    · simp [e]

/-- The Climate Supervisor's runtime starts again (R47, R54, R66). -/
theorem restartClimate_spec (s : State) :
   let t := s.restartClimate
   ClimateOnly s t ∧ t.slp = s.slp ∧ SameLatches s t ∧ t.tmb = s.tmb ∧ (∀ i, t.probeState i = .noSample)
       ∧ (∀ z, z < 16 → t.climate z = restartedRec s z)
    ∧ ∀ j x, IsPresent t j x ↔ IsPresent s j x ∧ j ≠ AlertKind.probeFault.code := by
  unfold State.restartClimate
  dsimp only
  obtain ⟨⟨a1, a2⟩, a3⟩ := lowerAll_spec s .probeFault
  have a4 := lowerAll_reported s .probeFault
  have a5 := lowerAll_sameLatches s .probeFault
  have a6 := lowerAll_tmb s .probeFault
  generalize s.lowerAll .probeFault = u at a1 a2 a3 a4 a5 a6 ⊢
  obtain ⟨h1, h2, h3, h3', h4, h5⟩ :=
      foldl_restartRec_spec zoneNumbers (by decide) { u with cls := { u.cls with probeState := [] } }
  have mid : ClimateOnly u { u with cls := { u.cls with probeState := [] } } :=
      ⟨⟨rfl, rfl, rfl, rfl, rfl, rfl, rfl, rfl, rfl, AlertsPass.same rfl rfl⟩, rfl, rfl, rfl, rfl, rfl, rfl, rfl,
          rfl, rfl, rfl⟩
  refine ⟨(ClimateOnly.of a4 a1).trans (mid.trans h1), h2.trans a2,
      SameLatches.trans a5 (SameLatches.same (by rw [h3])), h3'.trans a6, fun i => ?_, fun z hz => ?_, fun j x => ?_⟩
  · simp only [State.probeState]; rw [h4]; rfl
  · rw [h5, if_pos (by simp [zoneNumbers, Config.zoneCount, hz])]
    simp only [restartedRec, State.climate, a4.cls]
  · rw [← a3]; simp only [IsPresent, State.alertRec]; rw [h3]

theorem probesOf_of_cgt {s t : State} (h : t.cgt = s.cgt) (z : Nat) : t.probesOf z = s.probesOf z := by
  simp only [State.probesOf, State.stationList, h]

/-- ZONE_NO_DATA is raised for the zones of a list that have a PROBE station (R64). -/
theorem foldl_raiseNoData_spec (l : List Nat) : ∀ s : State, let t := l.foldl (fun s z => s.raiseClimate z .noData) s
   Reported s t ∧ AlertsPass s t ∧ ∀ j x, IsPresent t j x ↔ IsPresent s j x ∨ (j = AlertKind.zoneNoData.code
       ∧ x ∈ l ∧ s.probesOf x ≠ []) := by
  induction l with
  | nil => intro s; exact ⟨Reported.rfl' s, AlertsPass.rfl' s, by simp⟩
  | cons a l ih =>
    intro s
    obtain ⟨h1, h2, h3⟩ := ih (s.raiseClimate a .noData)
    have key : Reported s (s.raiseClimate a .noData) ∧ AlertsPass s (s.raiseClimate a .noData)
        ∧ ∀ j x, IsPresent (s.raiseClimate a .noData) j x ↔ IsPresent s j x ∨ (j = AlertKind.zoneNoData.code
            ∧ x = a ∧ s.probesOf a ≠ []) := by
      unfold State.raiseClimate; dsimp only
      split
      · rename_i h; exact ⟨Reported.rfl' s, AlertsPass.rfl' s, by simp [h]⟩
      · rename_i h
        obtain ⟨g1, g2⟩ := raiseCondition_spec s .zoneNoData a
        exact ⟨raiseCondition_reported _ _ _, g1, fun j x => by rw [show IsPresent _ j x ↔ _ from g2 j x]; simp [h]⟩
    obtain ⟨k1, k2, k3⟩ := key
    refine ⟨k1.trans h1, k2.trans h2, fun j x => ?_⟩
    simp only [List.foldl_cons]
    rw [h3, k3, probesOf_of_cgt k1.cgt, List.mem_cons]
    constructor
    · rintro ((h | ⟨e, e2, h⟩) | ⟨e, e2, h⟩)
      · exact .inl h
      · subst e2; exact .inr ⟨e, .inl rfl, h⟩
      · exact .inr ⟨e, .inr e2, h⟩
    · rintro (h | ⟨e, e2 | e2, h⟩)
      · exact .inl (.inl h)
      · subst e2; exact .inl (.inr ⟨e, rfl, h⟩)
      · exact .inr ⟨e, e2, h⟩

/-- A nonzero limit that the exposure has reached (R65). -/
abbrev ExposureDue (s : State) (z : Nat) : Prop := (s.zone z).exposureLimit ≠ 0
    ∧ (s.zone z).exposureLimit ≤ (s.climate z).exposure

/-- What the test for EXPOSED of a zone does (R65). -/
theorem testExposed_spec (s : State) (a : Nat) : let t := s.testExposed a
  ClimateOnly s t ∧ t.cls.probeState = s.cls.probeState
      ∧ (∀ y, ∃ e, t.climate y = { s.climate y with exposed := e } ∧ (e = true ↔ (s.climate y).exposed = true
          ∨ (y = a ∧ ExposureDue s y))) ∧ ∀ j x, IsPresent t j x ↔ IsPresent s j x
              ∨ (j = AlertKind.zoneExposed.code ∧ x = a ∧ (s.climate x).exposed = false ∧ ExposureDue s x) := by
  unfold State.testExposed
  dsimp only
  split
  · rename_i h
    obtain ⟨g1, g2⟩ := raiseCondition_spec (s.setClimate a { s.climate a with exposed := true }) .zoneExposed a
    have g3 := raiseCondition_reported (s.setClimate a { s.climate a with exposed := true }) .zoneExposed a
    refine ⟨(setClimate_only _ _ _).trans (ClimateOnly.of g3 g1), by rw [g3.cls]; rfl, fun y => ?_, fun j x => ?_⟩
    · have e : ((s.setClimate a { s.climate a with exposed := true }).raiseCondition .zoneExposed a).climate y =
        (s.setClimate a { s.climate a with exposed := true }).climate y :=
            by unfold State.climate at g3 ⊢; rw [g3.cls]
      rw [e, State.climate_setClimate]
      by_cases hy : y = a
      · subst hy; exact ⟨true, by simp, by simp [ExposureDue, h.1, h.2.1]⟩
      · exact ⟨(s.climate y).exposed, by simp [hy], by simp [hy]⟩
    · rw [show IsPresent _ j x ↔ _ from g2 j x]
      show x ∈ (s.alertRec j).present ∨ _ ↔ _
      constructor
      · rintro (q | ⟨e1, e2⟩)
        · exact .inl q
        · subst e2; exact .inr ⟨e1, rfl, h.2.2, h.1, h.2.1⟩
      · rintro (q | ⟨e1, e2, _⟩)
        · exact .inl q
        · exact .inr ⟨e1, e2⟩
  · rename_i h
    refine ⟨ClimateOnly.rfl' s, rfl, fun y => ⟨(s.climate y).exposed, rfl, ?_⟩, fun j x => ?_⟩
    · constructor
      · exact Or.inl
      · rintro (q | ⟨e, q1, q2⟩)
        · exact q
        · subst e
          cases hx : (s.climate y).exposed
          · exact absurd ⟨q1, q2, hx⟩ h
          · rfl
    · constructor
      · exact Or.inl
      · rintro (q | ⟨_, e, q1, q2, q3⟩)
        · exact q
        · subst e; exact absurd ⟨q2, q3, q1⟩ h

theorem foldl_testExposed_spec (l : List Nat) : ∀ s : State, let t := l.foldl State.testExposed s
  ClimateOnly s t ∧ t.cls.probeState = s.cls.probeState
      ∧ (∀ y, ∃ e, t.climate y = { s.climate y with exposed := e } ∧ (e = true ↔ (s.climate y).exposed = true
          ∨ (y ∈ l ∧ ExposureDue s y))) ∧ ∀ j x, IsPresent t j x ↔ IsPresent s j x
              ∨ (j = AlertKind.zoneExposed.code ∧ x ∈ l ∧ (s.climate x).exposed = false ∧ ExposureDue s x) := by
  induction l with
  | nil => intro s; exact ⟨ClimateOnly.rfl' s, rfl, fun y => ⟨(s.climate y).exposed, rfl, by simp⟩, by simp⟩
  | cons a l ih =>
    intro s
    obtain ⟨h1, h2, h3, h4⟩ := ih (s.testExposed a)
    obtain ⟨g1, g2, g3, g4⟩ := testExposed_spec s a
    have due : ∀ y, ExposureDue (s.testExposed a) y ↔ ExposureDue s y := by
      intro y
      obtain ⟨e, he, _⟩ := g3 y
      have hz : (s.testExposed a).zone y = s.zone y := by simp only [State.zone, g1.zones]
      simp only [ExposureDue, hz, he]
    refine ⟨g1.trans h1, h2.trans g2, fun y => ?_, fun j x => ?_⟩
    · obtain ⟨e1, he1, hi1⟩ := g3 y
      obtain ⟨e2, he2, hi2⟩ := h3 y
      refine ⟨e2, by simp only [List.foldl_cons]; rw [he2, he1], ?_⟩
      rw [hi2, he1, due, List.mem_cons]
      show e1 = true ∨ _ ↔ _
      rw [hi1]
      constructor
      · rintro ((q | ⟨q, q2⟩) | ⟨q, q2⟩)
        · exact .inl q
        · exact .inr ⟨.inl q, q2⟩
        · exact .inr ⟨.inr q, q2⟩
      · rintro (q | ⟨q | q, q2⟩)
        · exact .inl (.inl q)
        · exact .inl (.inr ⟨q, q2⟩)
        · exact .inr ⟨q, q2⟩
    · simp only [List.foldl_cons]
      rw [h4, g4, due, List.mem_cons]
      obtain ⟨e1, he1, hi1⟩ := g3 x
      rw [he1]
      show _ ∨ (_ ∧ _ ∧ e1 = false ∧ _) ↔ _
      have hf : e1 = false ↔ (s.climate x).exposed = false ∧ ¬ (x = a ∧ ExposureDue s x) := by
        rw [← Bool.not_eq_true, hi1, not_or, Bool.not_eq_true]
      rw [hf]
      constructor
      · rintro ((q | ⟨q1, q2, q3, q4⟩) | ⟨q1, q2, ⟨q3, _⟩, q4⟩)
        · exact .inl q
        · exact .inr ⟨q1, .inl q2, q3, q4⟩
        · exact .inr ⟨q1, .inr q2, q3, q4⟩
      · rintro (q | ⟨q1, q2, q3, q4⟩)
        · exact .inl (.inl q)
        · by_cases e : x = a
          · exact .inl (.inr ⟨q1, e, q3, q4⟩)
          · refine .inr ⟨q1, q2.resolve_left e, ⟨q3, fun h => e h.1⟩, q4⟩

/-- What the Climate Supervisor does at an accepted ACTIVATE (R47, R54, R64 to R66). -/
theorem activateClimate_spec (s : State) : let t := s.activateClimate
   ClimateOnly s t ∧ (∀ i, t.probeState i = .noSample)
   ∧ (∀ z, z < 16 → ∃ e, t.climate z = ⟨.noData, none, 0, 0, (s.climate z).exposure, e, false, false⟩ ∧ (e = true
       ↔ (s.climate z).exposed = true ∨ ExposureDue s z))
   ∧ ∀ j x, x < 16 ∨ (j ≠ AlertKind.zoneNoData.code ∧ j ≠ AlertKind.zoneExposed.code) → (IsPresent t j x
       ↔ (IsPresent s j x ∧ j ≠ AlertKind.probeFault.code) ∨ (j = AlertKind.zoneNoData.code ∧ s.probesOf x ≠ [])
           ∨ (j = AlertKind.zoneExposed.code ∧ (s.climate x).exposed = false ∧ ExposureDue s x)) := by
  unfold State.activateClimate
  dsimp only
  obtain ⟨a1, _, _, _, a2, a3, a4⟩ := restartClimate_spec s
  generalize s.restartClimate = u at a1 a2 a3 a4 ⊢
  obtain ⟨b1, b2, b3⟩ := foldl_raiseNoData_spec zoneNumbers u
  generalize List.foldl (fun s z => State.raiseClimate s z .noData) u zoneNumbers = v at b1 b2 b3 ⊢
  obtain ⟨c1, c2, c3, c4⟩ := foldl_testExposed_spec zoneNumbers v
  have hm : ∀ z, z ∈ zoneNumbers ↔ z < 16 := by intro z; simp [zoneNumbers, Config.zoneCount]
  have vc : ∀ z, v.climate z = u.climate z := by intro z; simp only [State.climate, b1.cls]
  have vz : ∀ z, v.zone z = s.zone z := by intro z; simp only [State.zone, b1.cls, a1.zones]
  refine ⟨a1.trans ((ClimateOnly.of b1 b2).trans c1), fun i => ?_, fun z hz => ?_, fun j x hx => ?_⟩
  · have := a2 i; simp only [State.probeState] at this ⊢; rw [c2, b1.cls]; exact this
  · obtain ⟨e, he, hi⟩ := c3 z
    refine ⟨e, ?_, ?_⟩
    · rw [he, vc, a3 z hz]; rfl
    · rw [hi, vc, a3 z hz, hm]; simp only [ExposureDue, vz, vc, a3 z hz, hz, true_and]
  · rw [c4, b3, a4, hm, probesOf_of_cgt a1.cgt]
    by_cases h16 : x < 16
    · simp only [h16, true_and, ExposureDue, vc, vz, a3 x h16, or_assoc]
    · have := hx.resolve_left h16
      simp [this]

/-! ### The Fire Supervisor -/

/-- Of the owners only the Fire Supervisor's runtime, and what it hands on, may differ. -/
structure FireOnly (s t : State) : Prop where
  outside : KeptOutside s t
  cgt : t.cgt = s.cgt
  cls : t.cls = s.cls
  hoc : t.hoc = s.hoc
  step : t.tmb.step = s.tmb.step
  dwell : t.tmb.dwell = s.tmb.dwell
  inputs : t.frs.inputs = s.frs.inputs

theorem FireOnly.trans {s t u : State} (a : FireOnly s t) (b : FireOnly t u) : FireOnly s u := by
  obtain ⟨h0, h1, h2, h3, h4, h5, h6⟩ := a
  obtain ⟨g0, g1, g2, g3, g4, g5, g6⟩ := b
  exact ⟨h0.trans g0, g1.trans h1, g2.trans h2, g3.trans h3, g4.trans h4, g5.trans h5, g6.trans h6⟩

theorem FireOnly.of {s t : State} (r : Reported s t) (a : AlertsPass s t) : FireOnly s t :=
  ⟨KeptOutside.of r a, r.cgt, r.cls, r.hoc, r.step, r.dwell, by rw [r.frs]⟩

theorem FireOnly.rfl' (s : State) : FireOnly s s := FireOnly.of (Reported.rfl' s) (AlertsPass.rfl' s)

theorem foldl_stopRelease_spec (l : List Nat) : l.Nodup → ∀ s : State,
   let t := l.foldl (fun s z => s.setReleaseTimer z (s.releaseTimer z).stop) s
   FireOnly s t ∧ t.slp = s.slp ∧ t.alb = s.alb ∧ t.frs = s.frs ∧ t.handed = s.handed ∧ t.tmb.pulse = s.tmb.pulse
       ∧ ∀ z, t.releaseTimer z = if z ∈ l then (s.releaseTimer z).stop else s.releaseTimer z := by
  induction l with
  | nil => intro _ s; exact ⟨FireOnly.rfl' s, rfl, rfl, rfl, rfl, rfl, by simp⟩
  | cons a l ih =>
    intro hn s
    rw [List.nodup_cons] at hn
    obtain ⟨h1, h2, h3, h4, h5, h5', h6⟩ := ih hn.2 (s.setReleaseTimer a (s.releaseTimer a).stop)
    have k : FireOnly s (s.setReleaseTimer a (s.releaseTimer a).stop) :=
        ⟨⟨rfl, rfl, rfl, rfl, rfl, rfl, rfl, rfl, rfl, AlertsPass.same rfl rfl⟩, rfl, rfl, rfl, rfl, rfl, rfl⟩
    refine ⟨k.trans h1, h2, h3, h4, h5, h5', fun z => ?_⟩
    simp only [List.foldl_cons]
    rw [h6]
    simp only [State.releaseTimer_setReleaseTimer]
    by_cases e : z = a
    · subst e; simp [hn.1]
    · simp [e]

/-- The Fire Supervisor's runtime starts again, its timers stopped (R71, R78). -/
theorem restartFire_spec (s : State) : let t := s.restartFire
   FireOnly s t ∧ t.slp = s.slp ∧ SameLatches s t ∧ t.tmb.pulse = s.tmb.pulse ∧ t.handed = s.handed
       ∧ (∀ i, t.inputStage i = .noReport) ∧ (∀ z, t.fire z = ⟨.quiet, none, [], false, false⟩)
    ∧ (∀ z, z < 16 → t.releaseTimer z = (s.releaseTimer z).stop) ∧ ∀ j x, IsPresent t j x ↔ IsPresent s j x
        ∧ j ≠ AlertKind.detectorFault.code := by
  unfold State.restartFire
  dsimp only
  obtain ⟨⟨a1, a2⟩, a3⟩ := lowerAll_spec s .detectorFault
  have a4 := lowerAll_reported s .detectorFault
  have a5 := lowerAll_sameLatches s .detectorFault
  have a6 := lowerAll_tmb s .detectorFault
  generalize s.lowerAll .detectorFault = u at a1 a2 a3 a4 a5 a6 ⊢
  obtain ⟨h1, h2, h3, h4, h5, h5', h6⟩ :=
      foldl_stopRelease_spec zoneNumbers (by decide) { u with frs := { u.frs with stages := [], fire := [] } }
  have mid : FireOnly u { u with frs := { u.frs with stages := [], fire := [] } } :=
      ⟨⟨rfl, rfl, rfl, rfl, rfl, rfl, rfl, rfl, rfl, AlertsPass.same rfl rfl⟩, rfl, rfl, rfl, rfl, rfl, rfl⟩
  refine ⟨(FireOnly.of a4 a1).trans (mid.trans h1), h2.trans a2,
      SameLatches.trans a5 (SameLatches.same (by rw [h3])), ?_, h5.trans a4.handed, fun i => ?_, fun z => ?_,
          fun z hz => ?_, fun j x => ?_⟩
  · rw [h5']; show u.tmb.pulse = _; rw [a6]
  · simp only [State.inputStage]; rw [h4]; rfl
  · simp only [State.fire]; rw [h4]; rfl
  · rw [h6, if_pos (by simp [zoneNumbers, Config.zoneCount, hz])]
    simp only [State.releaseTimer, a4.release]
  · rw [← a3]; simp only [IsPresent, State.alertRec]; rw [h3]

theorem unmonitoredNow_noReport (s : State) (z : Nat) (h : ∀ i,
    s.inputStage i = .noReport) : s.unmonitoredNow z = true := by
  unfold State.unmonitoredNow State.stagesOf
  simp only [List.any_map, Bool.not_eq_true', List.any_eq_false]
  intro x _
  simp only [Function.comp, h, Stage.usable]; decide

theorem zoneHasStations_iff (s : State) (z : Nat) : s.zoneHasStations z = true
    ↔ ∃ p ∈ s.stationList, p.2.zone = some z := by
  simp [State.zoneHasStations]

/-- With every input at NO_REPORT the zones of a list become UNMONITORED (R75). -/
theorem foldl_recomputeUnmonitored_spec (l : List Nat) : l.Nodup → ∀ s : State, (∀ i, s.inputStage i = .noReport)
    → (∀ z ∈ l, s.fire z = ⟨.quiet, none, [], false, false⟩) →
   let t := l.foldl State.recomputeUnmonitored s
   FireOnly s t ∧ (∀ i, t.inputStage i = .noReport)
       ∧ (∀ z, t.fire z = if z ∈ l then ⟨.quiet, none, [], false, true⟩ else s.fire z) ∧ t.tmb.release = s.tmb.release
    ∧ t.handed = s.handed ++ l.map (fun z => Instr.zoneReport z (.unmonitoredChanged true))
    ∧ ∀ j x, IsPresent t j x ↔ IsPresent s j x ∨ (j = AlertKind.zoneUnmonitored.code ∧ x ∈ l
        ∧ ∃ p ∈ s.stationList, p.2.zone = some x) := by
  induction l with
  | nil => intro _ s h _; exact ⟨FireOnly.rfl' s, h, by simp, rfl, by simp, by simp⟩
  | cons a l ih =>
    intro hn s hi hf
    rw [List.nodup_cons] at hn
    have hu := unmonitoredNow_noReport s a hi
    have key : ∃ u : State, s.recomputeUnmonitored a = u.hand (.zoneReport a (.unmonitoredChanged true))
        ∧ Reported (s.setFire a ⟨.quiet, none, [], false, true⟩) u
            ∧ AlertsPass (s.setFire a ⟨.quiet, none, [], false, true⟩) u ∧ ∀ j x, IsPresent u j x
                ↔ IsPresent s j x ∨ (j = AlertKind.zoneUnmonitored.code ∧ x = a
                    ∧ ∃ p ∈ s.stationList, p.2.zone = some a) := by
      unfold State.recomputeUnmonitored
      simp only [hu, hf a (by simp)]
      by_cases hz : s.zoneHasStations a = true
      · have hz' : (s.setFire a ⟨.quiet, none, [], false, true⟩).zoneHasStations a = true := hz
        obtain ⟨g1, g2⟩ := raiseCondition_spec (s.setFire a ⟨.quiet, none, [], false, true⟩) .zoneUnmonitored a
        refine ⟨_, by simp [hz'], raiseCondition_reported _ _ _, g1, fun j x => ?_⟩
        rw [show IsPresent _ j x ↔ _ from g2 j x, ← zoneHasStations_iff, hz]; simp; rfl
      · have hz' : ¬ (s.setFire a ⟨.quiet, none, [], false, true⟩).zoneHasStations a = true := hz
        refine ⟨s.setFire a ⟨.quiet, none, [], false, true⟩, by simp [hz'], Reported.rfl' _, AlertsPass.rfl' _,
            fun j x => ?_⟩
        rw [← zoneHasStations_iff]; simp [hz]; rfl
    obtain ⟨u, hu0, hu1, hu2, hu3⟩ := key
    have k : FireOnly s (u.hand (.zoneReport a (.unmonitoredChanged true))) := by
      have k1 : FireOnly s (s.setFire a ⟨.quiet, none, [], false, true⟩) :=
          ⟨⟨rfl, rfl, rfl, rfl, rfl, rfl, rfl, rfl, rfl, AlertsPass.same rfl rfl⟩, rfl, rfl, rfl, rfl, rfl, rfl⟩
      have k2 : FireOnly u (u.hand (.zoneReport a (.unmonitoredChanged true))) :=
          ⟨⟨rfl, rfl, rfl, rfl, rfl, rfl, rfl, rfl, rfl, AlertsPass.same rfl rfl⟩, rfl, rfl, rfl, rfl, rfl, rfl⟩
      exact k1.trans ((FireOnly.of hu1 hu2).trans k2)
    have fi : ∀ z, (u.hand (.zoneReport a (.unmonitoredChanged true))).fire z = if z = a then ⟨.quiet, none, [],
        false, true⟩ else s.fire z := by
      intro z
      show u.fire z = _
      simp only [State.fire, hu1.frs]
      exact State.fire_setFire s a _ z
    have ist : ∀ z, (u.hand (.zoneReport a (.unmonitoredChanged true))).inputStage z = .noReport := by
      intro z
      show u.inputStage z = _
      simp only [State.inputStage, hu1.frs]
      exact hi z
    simp only [List.foldl_cons, hu0]
    obtain ⟨h1, h2, h3, h4, h5, h6⟩ := ih hn.2 _ ist (fun z hz => by
      rw [fi, if_neg (by rintro rfl; exact hn.1 hz)]; exact hf z (by simp [hz]))
    refine ⟨k.trans h1, h2, fun z => ?_, ?_, ?_, fun j x => ?_⟩
    · rw [h3, fi]
      by_cases e : z = a
      · subst e; simp
      · simp [e]
    · rw [h4]; exact hu1.release
    · rw [h5]
      show (u.handed ++ _) ++ _ = _
      rw [hu1.handed]; simp
    · rw [h6]
      show (IsPresent u j x ∨ _) ↔ _
      have sl : (u.hand (.zoneReport a (.unmonitoredChanged true))).stationList = s.stationList := by
        simp only [State.stationList, k.cgt]
      rw [hu3, sl, List.mem_cons]
      constructor
      · rintro ((h | ⟨e, e2, h⟩) | ⟨e, e2, h⟩)
        · exact .inl h
        · subst e2; exact .inr ⟨e, .inl rfl, h⟩
        · exact .inr ⟨e, .inr e2, h⟩
      · rintro (h | ⟨e, e2 | e2, h⟩)
        · exact .inl (.inl h)
        · subst e2; exact .inl (.inr ⟨e, rfl, h⟩)
        · exact .inr ⟨e, e2, h⟩

/-- What the Fire Supervisor does at an accepted ACTIVATE (R71, R75, R78). -/
theorem activateFire_spec (s : State) : let t := s.activateFire
   FireOnly s t ∧ (∀ i, t.inputStage i = .noReport) ∧ (∀ z, z < 16 → t.fire z = ⟨.quiet, none, [], false, true⟩
       ∧ t.releaseTimer z = (s.releaseTimer z).stop)
    ∧ t.handed = s.handed ++ (List.range 16).map (fun z => Instr.zoneReport z (.unmonitoredChanged true))
    ∧ ∀ j x, x < 16 ∨ j ≠ AlertKind.zoneUnmonitored.code → (IsPresent t j x ↔ (IsPresent s j x
        ∧ j ≠ AlertKind.detectorFault.code) ∨ (j = AlertKind.zoneUnmonitored.code
            ∧ ∃ p ∈ s.stationList, p.2.zone = some x)) := by
  unfold State.activateFire
  dsimp only
  obtain ⟨a1, _, _, _, a2, a3, a4, a5, a6⟩ := restartFire_spec s
  generalize s.restartFire = u at a1 a2 a3 a4 a5 a6 ⊢
  have hm : ∀ z, z ∈ zoneNumbers ↔ z < 16 := by intro z; simp [zoneNumbers, Config.zoneCount]
  obtain ⟨b1, b2, b3, b4, b5, b6⟩ := foldl_recomputeUnmonitored_spec zoneNumbers (by decide) u a3 (fun z _ => a4 z)
  refine ⟨a1.trans b1, b2, fun z hz => ⟨?_, ?_⟩, ?_, fun j x hx => ?_⟩
  · rw [b3, if_pos ((hm z).2 hz)]
  · rw [← a5 z hz]; simp only [State.releaseTimer, b4]
  · rw [b5, a2]; rfl
  · have sl : u.stationList = s.stationList := by simp only [State.stationList, a1.cgt]
    rw [b6, a6, hm, sl]
    by_cases h16 : x < 16
    · simp only [h16, true_and]
    · have := hx.resolve_left h16
      simp [this]

/-! ### The hatches -/

/-- Of the owners only the hatch runtime and its timers may differ. -/
structure HatchesOnly (s t : State) : Prop where
  outside : KeptOutside s t
  cgt : t.cgt = s.cgt
  cls : t.cls = s.cls
  frs : t.frs = s.frs
  hatches : t.hoc.hatches = s.hoc.hatches
  cons : t.hoc.consignments = s.hoc.consignments
  release : t.tmb.release = s.tmb.release
  handed : t.handed = s.handed
  alb : t.alb = s.alb
  slp : t.slp = s.slp
  pulse : t.tmb.pulse = s.tmb.pulse

theorem HatchesOnly.trans {s t u : State} (a : HatchesOnly s t) (b : HatchesOnly t u) : HatchesOnly s u := by
  obtain ⟨h0, h1, h2, h3, h4, h5, h6, h7, h8, h9, h10⟩ := a
  obtain ⟨g0, g1, g2, g3, g4, g5, g6, g7, g8, g9, g10⟩ := b
  exact ⟨h0.trans g0, g1.trans h1, g2.trans h2, g3.trans h3, g4.trans h4, g5.trans h5, g6.trans h6, g7.trans h7,
      g8.trans h8, g9.trans h9, g10.trans h10⟩

theorem HatchesOnly.rfl' (s : State) : HatchesOnly s s :=
    ⟨KeptOutside.rfl' s, rfl, rfl, rfl, rfl, rfl, rfl, rfl, rfl, rfl, rfl⟩

theorem foldl_stopHatchTimers_spec (l : List Nat) : l.Nodup → ∀ s : State,
   let t := l.foldl (fun s h => (s.setStepTimer h (s.stepTimer h).stop).setDwellTimer h (s.dwellTimer h).stop) s
   HatchesOnly s t ∧ t.hoc.runtime = s.hoc.runtime
       ∧ (∀ h, t.stepTimer h = if h ∈ l then (s.stepTimer h).stop else s.stepTimer h)
           ∧ (∀ h, t.dwellTimer h = if h ∈ l then (s.dwellTimer h).stop else s.dwellTimer h) := by
  induction l with
  | nil => intro _ s; exact ⟨HatchesOnly.rfl' s, rfl, by simp, by simp⟩
  | cons a l ih =>
    intro hn s
    rw [List.nodup_cons] at hn
    obtain ⟨h1, h2, h3, h4⟩ := ih hn.2 ((s.setStepTimer a (s.stepTimer a).stop).setDwellTimer a (s.dwellTimer a).stop)
    have k : HatchesOnly s ((s.setStepTimer a (s.stepTimer a).stop).setDwellTimer a (s.dwellTimer a).stop) :=
        ⟨⟨rfl, rfl, rfl, rfl, rfl, rfl, rfl, rfl, rfl, AlertsPass.same rfl rfl⟩, rfl, rfl, rfl, rfl, rfl, rfl, rfl,
            rfl, rfl, rfl⟩
    refine ⟨k.trans h1, h2, fun h => ?_, fun h => ?_⟩ <;> simp only [List.foldl_cons]
    · rw [h3]
      have : ((s.setStepTimer a (s.stepTimer a).stop).setDwellTimer a (s.dwellTimer a).stop).stepTimer h = if h = a
          then (s.stepTimer a).stop else s.stepTimer h := State.stepTimer_setStepTimer s a _ h
      rw [this]
      by_cases e : h = a
      · subst e; simp [hn.1]
      · simp [e]
    · rw [h4]
      have : ((s.setStepTimer a (s.stepTimer a).stop).setDwellTimer a (s.dwellTimer a).stop).dwellTimer h = if h = a
          then (s.dwellTimer a).stop else s.dwellTimer h :=
              State.dwellTimer_setDwellTimer (s.setStepTimer a (s.stepTimer a).stop) a _ h
      rw [this]
      by_cases e : h = a
      · subst e; simp [hn.1]
      · simp [e]

/-- Every hatch runtime record starts again, its two timers stopped (R122). -/
theorem restartHatches_spec (s : State) : let t := s.restartHatches
   HatchesOnly s t ∧ (∀ h, t.hatchRuntime h = ⟨.noReport, false, false, false, false, none, false⟩) ∧ ∀ h, h < 4
       → t.stepTimer h = (s.stepTimer h).stop ∧ t.dwellTimer h = (s.dwellTimer h).stop := by
  unfold State.restartHatches
  dsimp only
  obtain ⟨h1, h2, h3, h4⟩ := foldl_stopHatchTimers_spec (List.range Config.hatchCount) (by decide)
      { s with hoc := { s.hoc with runtime := [] } }
  have mid : HatchesOnly s { s with hoc := { s.hoc with runtime := [] } } :=
      ⟨⟨rfl, rfl, rfl, rfl, rfl, rfl, rfl, rfl, rfl, AlertsPass.same rfl rfl⟩, rfl, rfl, rfl, rfl, rfl, rfl, rfl,
          rfl, rfl, rfl⟩
  refine ⟨mid.trans h1, fun h => ?_, fun h hh => ?_⟩
  · simp only [State.hatchRuntime]; rw [h2]; rfl
  · have hm : h ∈ List.range Config.hatchCount := by simp [Config.hatchCount, hh]
    rw [h3, h4, if_pos hm, if_pos hm]; exact ⟨rfl, rfl⟩

end Sys2Proof.Machine
end

