-- ==== Sys2Proof/WellFormed.lean ====
section
/-!
DEFINITION. Which commands can be sent at all: an operand stays inside the width its layout gives it (chapter 11), a
station entry inside the station table, a zone or hatch inside its range. Ranges and codes that a rule answers
(RANGE, MALFORMED, BAD_ENTRY) are not tested here: they are the meaning's matter.
-/
namespace Sys2Proof

/-- A value of a one-byte field. -/
def fitsByte (n : Nat) : Bool := decide (n < 256)
/-- A value of a two-byte field. -/
def fitsHalf (n : Nat) : Bool := decide (n < 65536)
/-- A payload of at most 255 bytes (R1). -/
def fitsPayload (p : List Byte) : Bool := decide (p.length ≤ 255)
/-- An entry of the station table (R18). -/
def isEntry (i : Nat) : Bool := decide (i < Config.stationCount)
/-- The 8 bytes of an identifier field (R184). -/
def isIdentField (x : Ident) : Bool := decide (x.length = 8)
/-- A step of a field station: an entry and a payload. -/
def wfField (entry : Nat) (payload : List Byte) : Bool := isEntry entry && fitsPayload payload

/-- The operands are values the command's layout can carry. -/
def Instr.wf : Instr → Bool
  | .reset | .siteTransmitComplete | .fieldTransmissionEnd | .responseWindowExpiry => true
  | .byteGapTimeout _ => true
  | .siteFrameReceived bytes | .fieldResponse bytes | .fieldFrameOutOfTurn bytes => !bytes.isEmpty
  | .sample e p | .stage e p | .position e p | .takeScan e p | .returnScan e p | .wrongStationScan e p
  | .arrive e p | .caseReport e p | .accept e p | .confirm e p | .scanHandover e p | .scanReceive e p
  | .doneStep e p => wfField e p
  | .coupledZoneEvaluation z | .releaseTimerExpiry z => decide (z < Config.zoneCount)
  | .zoneReport z _ => decide (z < Config.zoneCount)
  | .stepTimerExpiry h | .dwellTimerExpiry h => decide (h < Config.hatchCount)
  | .secondTick _ | .minuteTick _ | .minuteScanVisit | .agentSweepVisit => true
  | .supervisionTimerExpiry | .retryTimerExpiry _ | .alertPulseExpiry => true
  | .malformedRequest p => fitsPayload p
  | .ident _ | .deactivate _ | .restart _ | .resume _ => true
  | .read _ selector index => fitsByte selector && isIdentField index
  | .tableOpen _ table start => fitsByte table && fitsByte start
  | .tableWrite _ count images => fitsByte count && decide (images.length ≤ 251)
  | .tableRead _ count => fitsByte count
  | .activate _ expected => fitsHalf expected
  | .activateCheckComplete _ | .storeBurnComplete => true
  | .zoneProfile _ zone profile => fitsByte zone && fitsByte profile
  | .zoneClearExposure _ zone | .zoneFireReset _ zone | .zoneRelease _ zone | .zoneSilence _ zone => fitsByte zone
  | .mediaEnter _ id cls home initial => isIdentField id && fitsByte cls && fitsByte home && fitsByte initial
  | .mediaDelete _ id | .mediaQuery _ id => isIdentField id
  | .mediaMove _ id home => isIdentField id && fitsByte home
  | .mediaHoldSet _ id hold | .mediaHoldClear _ id hold => isIdentField id && fitsByte hold
  | .consign _ number direction hatch courier items =>
      fitsHalf number && fitsByte direction && fitsByte hatch && isIdentField courier
        && items.all isIdentField && decide (items.length ≤ 29)
  | .consignCancel _ number => fitsHalf number
  | .clearAlerts _ kinds => kinds.all fitsByte && decide (kinds.length ≤ 251)
  | .setMask _ value kinds => fitsByte value && kinds.all fitsByte && decide (kinds.length ≤ 250)
  | .storeBurn _ item value | .setLive _ item value => fitsByte item && fitsHalf value

end Sys2Proof
end

