-- ==== Sys2Proof/Tests/Slice0.lean ====
section
/-!
SUPPORT. Tests of the model on small states: the well-formedness checks, the worked examples of the manual, and for each
statement of Certificates/Slice0/Obligations.lean states and operands that meet its hypotheses, clause by clause.
-/
namespace Sys2Proof.Tests
open Sys2Proof Sys2Proof.Machine

/-! ### Well-formedness: one ill-formed command for each check -/

theorem test_wf_refuses_wide_fields :
    ([.read 0 256 [0, 0, 0, 0, 0, 0, 0, 0], .tableOpen 0 256 0, .tableOpen 0 0 256, .tableWrite 0 256 [], .tableRead 0 256,
      .zoneProfile 0 256 0, .zoneProfile 0 0 256, .zoneClearExposure 0 256, .zoneFireReset 0 256, .zoneRelease 0 256,
      .zoneSilence 0 256, .setMask 0 256 [], .storeBurn 0 256 0, .setLive 0 256 0] : List Instr).all (fun c => !c.wf) = true := by
  decide

theorem test_wf_refuses_wide_numbers :
    ([.activate 0 65536, .consignCancel 0 65536, .storeBurn 0 0 65536, .setLive 0 0 65536,
      .consign 0 65536 0 0 (List.replicate 8 65) []] : List Instr).all (fun c => !c.wf) = true := by decide

theorem test_wf_refuses_short_identifiers :
    ([.read 0 7 [65], .mediaEnter 0 [65] 0 0 0, .mediaDelete 0 [65], .mediaQuery 0 [65], .mediaMove 0 [65] 0,
      .mediaHoldSet 0 [65] 0, .mediaHoldClear 0 [65] 0, .consign 0 1 0 0 [65] [],
      .consign 0 1 0 0 (List.replicate 8 65) [[65]]] : List Instr).all (fun c => !c.wf) = true := by decide

theorem test_wf_refuses_entries_zones_and_hatches :
    ([.sample 192 [], .stage 192 [], .position 192 [], .takeScan 192 [], .coupledZoneEvaluation 16, .releaseTimerExpiry 16,
      .zoneReport 16 .evaluated, .stepTimerExpiry 4, .dwellTimerExpiry 4] : List Instr).all (fun c => !c.wf) = true := by decide

set_option maxRecDepth 4000 in
theorem test_wf_refuses_long_lists :
    ([.siteFrameReceived [], .fieldResponse [], .fieldFrameOutOfTurn [], .malformedRequest (List.replicate 256 0),
      .sample 0 (List.replicate 256 0), .clearAlerts 0 (List.replicate 252 0), .setMask 0 0 (List.replicate 251 0),
      .tableWrite 0 1 (List.replicate 252 0), .consign 0 1 0 0 (List.replicate 8 65) (List.replicate 30 (List.replicate 8 65))]
      : List Instr).all (fun c => !c.wf) = true := by decide

theorem test_wf_accepts_bounds :
    ([.sample 191 [], .coupledZoneEvaluation 15, .stepTimerExpiry 3, .tableOpen 0 255 255, .activate 0 65535,
      .mediaEnter 0 (List.replicate 8 65) 255 255 255] : List Instr).all Instr.wf = true := by decide

/-- No row of the opcode table gives bits. -/
theorem test_no_word_is_a_command : decodeTableWord 16 0x1234 = none ∧ State.reset.withFetchWord 16 0 = State.reset := by decide

/-! ### Worked examples of the manual -/

/-- R2: the check value of the byte 00h. -/
theorem test_check_value : checkValue [0x00] = 0xDDFC := by decide

/-- R176: the sums of the worked check. -/
theorem test_activation_sum : activationSum [0x03, 0xF0, 0x11] = 0xFB05 ∧ activationSum [0x03, 0xF0, 0x11, 0xFF] = 0x0105 := by
  decide

/-- R59, R60, R61, R151 on the profile of the worked examples: limits 200, 300, 500, 700, w 30, h 20. -/
def profile1 : Profile := ⟨200, 300, 500, 700, 30, 20, 150, 220, 10, 2⟩

theorem test_bands :
    rawBand profile1 ⟨470, 180, 0⟩ = .normal ∧ rawBand profile1 ⟨471, 180, 0⟩ = .warning ∧ rawBand profile1 ⟨501, 180, 0⟩ = .excursion
    ∧ rawBand profile1 ⟨700, 180, 0⟩ = .critical ∧ rawBand profile1 ⟨400, 221, 0⟩ = .excursion
    ∧ heldBand profile1 ⟨481, 180, 0⟩ = .excursion ∧ heldBand profile1 ⟨480, 180, 0⟩ = .warning := by decide

theorem test_fallback_commands :
    let c : ClimateRec := { ClimateRec.fresh with state := .excursion, dehumidifier := true }
    fallbackCommands profile1 { c with reading := some ⟨512, 180, 0⟩ } = (false, true)
    ∧ fallbackCommands profile1 { c with reading := some ⟨495, 180, 0⟩ } = (false, true)
    ∧ fallbackCommands profile1 { c with reading := some ⟨476, 180, 0⟩ } = (false, false)
    ∧ fallbackCommands profile1 { c with reading := some ⟨299, 180, 0⟩ } = (true, false) := by decide

/-- R56: RH 996 to 1000 leaves the dew point at the temperature. -/
theorem test_dew_point : dewPoint 996 180 = 180 ∧ dewPoint 995 180 = 179 ∧ dewPoint 0 (-400) = -600 := by decide

/-! ### A small vault in ACTIVE_SUPERVISED -/

def idA : Ident := [0x41, 0x41, 0x41, 0x41, 0x41, 0x41, 0x41, 0x31]
def idB : Ident := [0x42, 0x42, 0x42, 0x42, 0x42, 0x42, 0x42, 0x32]
def courier : Ident := [0x43, 0x43, 0x43, 0x43, 0x43, 0x43, 0x43, 0x33]

def hatch0 : HatchEntry := ⟨5, 6, 4, 3, none, .witnessed, 60, 30, 300, true, 60, 600, 5, 60, 20⟩
def zone3 : ZoneEntry := ⟨1, .warning, 100, 2, true, true, 30, 1, [5, 0, 0, 0]⟩

/-- Stations: 0 probe, 1 smoke, 2 door reader, 3 witness reader, 4 hatch unit, 5 terminal, 6 to 10 actuators by function,
11 heat, 12 hold switch, 13 release switch, 14 a reader without role. -/
def stations : Tab StationEntry :=
  [(0, ⟨1, .probe, some 3, .none, 0, .changes⟩), (1, ⟨2, .fireInput, some 3, .none, 0, .all⟩),
   (2, ⟨3, .reader, some 3, .door, 0, .none⟩), (3, ⟨4, .reader, none, .witness, 0, .none⟩),
   (4, ⟨5, .hatchUnit, none, .none, 0, .none⟩), (5, ⟨6, .courierTerminal, none, .none, 0, .none⟩),
   (6, ⟨33, .actuator, some 3, .none, 0, .none⟩), (7, ⟨34, .actuator, some 3, .none, 1, .none⟩)]
  ++ [(8, ⟨35, .actuator, some 3, .none, 2, .none⟩), (9, ⟨36, .actuator, some 3, .none, 3, .none⟩),
   (10, ⟨37, .actuator, some 3, .none, 4, .none⟩), (11, ⟨7, .fireInput, some 3, .none, 1, .all⟩),
   (12, ⟨8, .fireInput, some 3, .none, 2, .all⟩), (13, ⟨9, .fireInput, some 3, .none, 3, .all⟩),
   (14, ⟨10, .reader, none, .none, 0, .none⟩)]

def vault : State :=
  { State.reset with
    cgt := ⟨stations, [(0, .humidifier), (1, .dehumidifier), (2, .damper), (3, .sounder), (4, .suppression)], []⟩
    cls := { State.reset.cls with profiles := [(1, profile1)], zones := [(3, zone3)] }
    frs := { State.reset.frs with inputs := [(1, .heat), (2, .holdSwitch), (3, .releaseSwitch)] }
    csu := { State.reset.csu with classes := [(0, ⟨60, 2, 1, 30⟩)], media := [(0, some ⟨idA, 0, 3, .shelved, false, false⟩)] }
    hoc := { State.reset.hoc with hatches := [(0, hatch0)], runtime := [(0, { HatchRuntime.fresh with position := .closedLocked })] }
    mga := { State.reset.mga with partState := .supervised } }

/-- The vault in another part state. -/
def vaultIn (p : PartState) : State := vault.setMga { vault.mga with partState := p }
/-- The vault with zone 3 in a climate state with a reading. -/
def vaultAt (c : ClimateState) (rh : Nat) : State :=
  vault.setClimate 3 { ClimateRec.fresh with state := c, reading := some ⟨rh, 180, 100⟩, validCount := 1 }
/-- The vault with zone 3 in a fire state. -/
def vaultFire (f : FireState) : State := vault.setFire 3 { FireRec.fresh with state := f }
/-- The vault with the record of `idA` in a custody state. -/
def vaultHolding (c : Custody) : State := vault.setMedia 0 (some ⟨idA, 0, 3, c, false, false⟩)
/-- A consignment of one item. -/
def consigned (d : Direction) (st : ConsignState) : Consignment :=
  ⟨7, d, 0, courier, 0, st, [⟨idA, 0, .pending⟩], false, false, none, none, none, none, none⟩
/-- The vault with a consignment. -/
def vaultWith (d : Direction) (st : ConsignState) : State := vault.addConsignment (consigned d st)
/-- The vault with a hatch position. -/
def atPosition (s : State) (p : Position) : State := s.setHatchRuntime 0 { s.hatchRuntime 0 with position := p }
def handedTo (s : State) (c : Instr) : State := { s with handed := [c] }
def withSegment (s : State) (g : Segment) : State := s.setSegment g
def withUrgent (s : State) (q : List Frame) : State := { s with fsp := { s.fsp with urgent := q } }
def withOrdinary (s : State) (q : List OrdItem) : State := { s with fsp := { s.fsp with ordinary := q } }
def withBurn (s : State) (b : Option BurnRec) : State := s.setMga { s.mga with burn := b }
def withWindow (s : State) (w : Option (TableId × Nat)) : State := s.setMga { s.mga with window := w }
def driveFrame (dst : Nat) : Frame := ⟨dst, 250, 0x22, [1]⟩
def item (f : Frame) (o : Origin) : OrdItem := ⟨f, o⟩

theorem test_vault_is_sound_in_its_tables : vault.active = true ∧ Tab.wf .zero vault.cgt.stations = true
    ∧ Tab.wf none vault.csu.media = true ∧ Tab.wf .zero vault.hoc.hatches = true := by decide


/-! ### States that meet the hypotheses of the statements -/

def ident0 : Instr := .ident 0
def pulsing (n : Nat) : State := vault.setPulse { vault.tmb.pulse with running := true, remaining := n }

/-- IdleStepsAndTheAlertPulse. -/
theorem test_hyps_idle_steps : vault.pending = [] ∧ (handedTo vault ident0).handed = ident0 :: [] ∧ vault.handed = []
    ∧ vault.tmb.pulse.running = false ∧ (pulsing 2).tmb.pulse.running = true ∧ (pulsing 2).tmb.pulse.gated = false
    ∧ 1 < (pulsing 2).tmb.pulse.remaining ∧ (pulsing 1).tmb.pulse.remaining ≤ 1 := by decide

/-- A site frame to the part, one from another source, one with a wrong check. -/
def requestFrame : Frame := ⟨251, 250, 0x30, [1, 0, 0]⟩
def strayFrame : Frame := ⟨251, 249, 0x30, []⟩
def badBytes : List Byte := [251, 250, 0x30, 0, 0, 0]

/-- FrameReadsBackFromItsBytes. -/
theorem test_hyps_frame : requestFrame.fits ∧ (Frame.mk 255 255 255 []).fits := by decide

def siteRx (s : State) (b : List Byte) : State := { s with slp := { s.slp with rx := b } }
def fieldRx (s : State) (b : List Byte) (m : Bool) : State := { s with fsp := { s.fsp with rx := b, rxInWindow := m } }
def awaitingProbe (s : State) : State := withSegment s (.awaiting 0 1 false)

/-- ByteGapDiscardsThePartialFrame. -/
theorem test_hyps_byte_gap : (siteRx vault [1]).slp.rx ≠ [] ∧ vault.slp.rx = []
    ∧ (fieldRx (awaitingProbe vault) [1] true).fsp.rx ≠ [] ∧ (fieldRx (awaitingProbe vault) [1] true).fsp.rxInWindow = true
    ∧ (fieldRx (awaitingProbe vault) [1] true).fsp.segment = .awaiting 0 1 false
    ∧ (fieldRx vault [1] false).fsp.rx ≠ [] ∧ (fieldRx vault [1] false).fsp.rxInWindow = false ∧ vault.fsp.rx = [] := by decide

set_option maxRecDepth 8000 in
/-- SiteFramesAreTestedThenClassified. -/
theorem test_hyps_site_frames : IsComplete badBytes ∧ readFrame badBytes = none
    ∧ IsComplete strayFrame.image ∧ readFrame strayFrame.image = some strayFrame ∧ strayFrame.src ≠ vault.mga.live.siteAddress
    ∧ requestFrame.fits ∧ requestFrame.src = vault.mga.live.siteAddress ∧ requestFrame.dst = vault.mga.live.ownAddress
    ∧ requestFrame.kind = 0x30 ∧ (Frame.mk 251 250 0x22 []).kind ≠ 0x30 ∧ (driveFrame 33).dst ≠ vault.mga.live.ownAddress
    ∧ (vaultIn .config).active = false ∧ vault.active = true ∧ vault.gateTest (driveFrame 33) = none
    ∧ vault.gateTest ⟨37, 250, 0x25, []⟩ = some .releaseReserved := by decide

set_option maxRecDepth 8000 in
/-- SiteFramesAreTestedThenClassified: bytes that complete nothing, that complete a partial frame, and that hold more. -/
theorem test_hyps_site_bytes : ((siteRx vault [251]).slp.rx ++ [250, 0x30]).length < 4
    ∧ ((siteRx vault [251, 250]).slp.rx ++ [0x30, 3, 1]).length < 6 + nat1 ((siteRx vault [251, 250]).slp.rx ++ [0x30, 3, 1]) 3
    ∧ (siteRx vault (requestFrame.image.take 5)).slp.rx ++ (requestFrame.image.drop 5 ++ badBytes) = requestFrame.image ++ badBytes
    ∧ IsComplete requestFrame.image ∧ readFrame requestFrame.image = some requestFrame
    ∧ (siteRx vault (requestFrame.image.take 5)).active = true := by decide

set_option maxRecDepth 8000 in
/-- Two requests in one list of bytes, the first begun earlier, are handed on in their order. -/
theorem test_two_site_frames : (match exec (.siteFrameReceived (requestFrame.image.drop 5 ++ (Frame.mk 251 250 0x30 [8, 9, 0]).image ++ [251]))
      (siteRx vault (requestFrame.image.take 5)) with
    | .next t => decide (t.handed = [.ident 0, .restart 9] ∧ t.slp.rx = [251])
    | _ => false) = true := by decide

/-- CommandGateRows: every row. -/
theorem test_hyps_gate_rows :
    vault.stationByAddr 99 = none
    ∧ vault.stationByAddr 33 = some ⟨33, .actuator, some 3, .none, 0, .none⟩ ∧ vault.actuator 0 = .humidifier
    ∧ vault.stationByAddr 35 = some ⟨35, .actuator, some 3, .none, 2, .none⟩ ∧ vault.actuator 2 = .damper
    ∧ vault.stationByAddr 36 = some ⟨36, .actuator, some 3, .none, 3, .none⟩ ∧ vault.actuator 3 = .sounder
    ∧ vault.stationByAddr 5 = some ⟨5, .hatchUnit, none, .none, 0, .none⟩ ∧ vault.hatchByUnit 5 = some (0, hatch0)
    ∧ vault.stationByAddr 6 = some ⟨6, .courierTerminal, none, .none, 0, .none⟩ ∧ vault.hatchByUnit 6 = none := by decide

theorem test_gate_blocks : (vaultFire .alarm).gateTest (driveFrame 33) = some .fireState
    ∧ (vaultIn .autonomous).gateTest (driveFrame 33) = some .autonomous
    ∧ (vaultFire .alarm).gateTest (driveFrame 35) = none ∧ (vaultFire .released).gateTest (driveFrame 35) = some .fireState
    ∧ (vaultFire .preAlarm).gateTest ⟨36, 250, 0x23, []⟩ = some .fireState
    ∧ (vaultWith .outbound .offered).gateTest ⟨5, 250, 0x24, [1]⟩ = some .handoverActive
    ∧ (vaultWith .outbound .waiting).gateTest ⟨5, 250, 0x24, [1]⟩ = none
    ∧ vault.gateTest ⟨255, 250, 0x24, []⟩ = some .broadcast := by decide

/-- CommandGateRows: a broadcast of another kind. -/
theorem test_hyps_gate_broadcast : 0x20 ∉ [0x22, 0x23, 0x24, 0x25] ∧ vault.gateTest ⟨255, 250, 0x20, []⟩ = none := by decide

def noticeFrame : SiteItem := ⟨⟨250, 251, 0x32, []⟩, .notice⟩
def siteFilled (s : State) (n : Nat) : State :=
  { s with slp := { s.slp with tx := some noticeFrame, queue := List.replicate n noticeFrame } }

/-- SiteQueueAndTransmitter. -/
theorem test_hyps_site_queue : (siteFilled vault 47).slp.queue.length < 48 ∧ 48 ≤ (siteFilled vault 48).slp.queue.length
    ∧ (siteFilled vault 0).slp.tx = some noticeFrame ∧ noticeFrame.tag ≠ .restartReply ∧ vault.slp.tx = none := by decide

def pollFrame : Frame := ⟨1, 251, 0x01, []⟩

/-- TransmissionsAndWindowsEnd. -/
theorem test_hyps_transmissions : (withSegment vault (.sending (.poll 0 pollFrame))).fsp.segment = .sending (.poll 0 pollFrame)
    ∧ (withSegment vault (.sending (.urgent pollFrame))).fsp.segment = .sending (.urgent pollFrame)
    ∧ (withSegment vault (.sending (.ordinary (item (driveFrame 33) .site)))).fsp.segment
        = .sending (.ordinary (item (driveFrame 33) .site))
    ∧ vault.fsp.segment = .idle ∧ (awaitingProbe vault).fsp.segment = .awaiting 0 1 false
    ∧ (awaitingProbe vault).fsp.rxInWindow = false := by decide

def afterPoll (s : State) : State := { s with fsp := { s.fsp with lastNonUrgent := .poll, pollPos := some 13 } }

/-- ArbiterChoosesByItsCases. -/
theorem test_hyps_arbiter : (withUrgent vault [pollFrame]).fsp.urgent = pollFrame :: [] ∧ vault.fsp.urgent = []
    ∧ (withOrdinary (afterPoll vault) [item (driveFrame 33) .site]).fsp.ordinary = item (driveFrame 33) .site :: []
    ∧ (afterPoll vault).fsp.lastNonUrgent = .poll ∧ (afterPoll vault).sendTest (item (driveFrame 33) .site) = (true, afterPoll vault)
    ∧ (vaultFire .alarm).sendTest (item (driveFrame 33) .cls) = (false, vaultFire .alarm)
    ∧ vault.fsp.ordinary = [] ∧ vault.fsp.lastNonUrgent = .ordinary ∧ vault.stationList ≠ []
    ∧ vault.nextPoll = some (0, ⟨1, .probe, some 3, .none, 0, .changes⟩) ∧ State.reset.nextPoll = none
    ∧ (afterPoll vault).nextPoll = some (14, ⟨10, .reader, none, .none, 0, .none⟩) := by decide

/-- FieldQueuesTakeFrames. -/
theorem test_hyps_field_queues : vault.fsp.urgent.all (fun g => g.dst != 1) = true
    ∧ (withUrgent vault [driveFrame 33, pollFrame]).fsp.urgent = [driveFrame 33] ++ pollFrame :: []
    ∧ [driveFrame 33].all (fun x => x.dst != 1) = true ∧ vault.fsp.ordinary.length < 32
    ∧ 32 ≤ (withOrdinary vault (List.replicate 32 (item (driveFrame 33) .site))).fsp.ordinary.length
    ∧ vault.fsp.segment = .idle ∧ (awaitingProbe vault).fsp.segment ≠ .idle := by decide

/-- The vault with its reader, terminal and unit also as stations of no hatch. -/
def noHatch (s : State) : State := { s with hoc := { s.hoc with hatches := [] } }

/-- FramesAreTestedBeforeSending. -/
theorem test_hyps_send_tests : (vaultIn .config).active = false ∧ (vaultFire .alarm).gateTest (driveFrame 33) = some .fireState
    ∧ vault.gateTest ⟨5, 250, 0x24, [1]⟩ = none ∧ vault.gateTest ⟨5, 250, 0x24, [0]⟩ = none
    ∧ vault.hatchByUnit 5 = some (0, hatch0) ∧ vault.stationByAddr 36 = some ⟨36, .actuator, some 3, .none, 3, .none⟩
    ∧ (vaultFire .alarm).fireState 3 = .alarm ∧ (FireState.alarm).latched = true ∧ vault.fireState 3 = .quiet
    ∧ (FireState.quiet).latched = false
    ∧ vault.actuator 0 = .humidifier ∧ vault.actuator 1 = .dehumidifier := by decide

/-- FramesAreTestedBeforeSending: frames whose station or hatch has left the table. -/
theorem test_hyps_send_tests_gone : vault.stationByAddr 99 = none
    ∧ vault.stationByAddr 5 = some ⟨5, .hatchUnit, none, .none, 0, .none⟩ ∧ (noHatch vault).hatchByUnit 5 = none
    ∧ vault.stationByAddr 36 = some ⟨36, .actuator, some 3, .none, 3, .none⟩ ∧ vault.actuator 3 = .sounder
    ∧ vault.stationByAddr 1 = some ⟨1, .probe, some 3, .none, 0, .changes⟩ := by decide

def missedTimes (n : Nat) (silent : Bool) : State := vault.setStationRuntime 0 ⟨n, silent, none⟩

/-- MissedCountAndSilentMark. -/
theorem test_hyps_missed : (vault.station 0).addr = 1 ∧ (vault.station 0).addr ≠ 2 ∧ ((missedTimes 1 false).stationRuntime 0).missed < 2
    ∧ 2 ≤ ((missedTimes 2 false).stationRuntime 0).missed ∧ ((missedTimes 2 false).stationRuntime 0).silent = false
    ∧ 2 ≤ ((missedTimes 3 true).stationRuntime 0).missed ∧ ((missedTimes 3 true).stationRuntime 0).silent = true := by decide

def sampleFrame : Frame := ⟨251, 1, 0x10, [1, 0x90, 0, 180, 0]⟩
def foreignFrame : Frame := ⟨251, 1, 0x30, []⟩

set_option maxRecDepth 8000 in
/-- FieldFramesInAndOutOfTheWindow. -/
theorem test_hyps_field_frames : (awaitingProbe vault).fsp.rx = [] ∧ IsComplete badBytes ∧ readFrame badBytes = none
    ∧ IsComplete sampleFrame.image ∧ readFrame sampleFrame.image = some sampleFrame ∧ sampleFrame.src ≠ 2 ∧ sampleFrame.src = 1
    ∧ sampleFrame.kind ≠ 0x30 ∧ IsComplete foreignFrame.image ∧ readFrame foreignFrame.image = some foreignFrame
    ∧ foreignFrame.kind = 0x30 ∧ vault.fsp.rxInWindow = false ∧ vault.fsp.segment = .idle
    ∧ IsComplete (vault.fsp.rx ++ sampleFrame.image) := by decide

set_option maxRecDepth 8000 in
/-- FieldFramesInAndOutOfTheWindow: bytes that complete nothing, and bytes that complete a frame begun in the window, or out of
turn, and hold more. -/
theorem test_hyps_field_bytes : ((fieldRx vault [251] false).fsp.rx ++ [1, 0x10]).length < 4
    ∧ ([251, 1, 0x10, 5] : List Byte).length < 6 + nat1 [251, 1, 0x10, 5] 3
    ∧ (let s := fieldRx (awaitingProbe vault) (sampleFrame.image.take 5) true
       s.fsp.rx ++ (sampleFrame.image.drop 5 ++ badBytes) = sampleFrame.image ++ badBytes ∧ s.fsp.rx ≠ [] ∧ s.fsp.rxInWindow = true
        ∧ s.fsp.segment = .awaiting 0 1 false)
    ∧ vault.fsp.rx ++ sampleFrame.image = sampleFrame.image ++ [] ∧ vault.awaiting = false
    ∧ (awaitingProbe vault).awaiting = true := by decide

set_option maxRecDepth 8000 in
/-- A response begun earlier in its window is dispatched; the frame after it is out of turn, and the last byte waits. -/
theorem test_two_field_frames : (match exec (.fieldResponse (sampleFrame.image.drop 5 ++ badBytes ++ [9]))
      (fieldRx (awaitingProbe vault) (sampleFrame.image.take 5) true) with
    | .next t => decide (t.handed = [.sample 0 sampleFrame.payload] ∧ t.fsp.rx = [9] ∧ t.fsp.rxInWindow = false)
        && decide ((t.alertRec AlertKind.frameErrors.code).count = 1)
    | _ => false) = true := by decide

/-- ResponsesAreForwardedAndDispatched. -/
theorem test_hyps_responses : sampleFrame.kind ≠ 0x02 ∧ vault.active = true ∧ (vaultIn .config).active = false
    ∧ (vault.station 0).addr ≠ 0 ∧ 0x13 ∈ [0x13, 0x14, 0x15, 0x16, 0x17, 0x18] ∧ sampleFrame.kind ∉ [0x13, 0x14, 0x15, 0x16, 0x17, 0x18]
    ∧ State.dispatchCommand (vault.station 0) 0 sampleFrame = some (.sample 0 sampleFrame.payload)
    ∧ State.dispatchCommand (vault.station 6) 6 sampleFrame = none
    ∧ (vault.station 0).kind = .probe ∧ (vault.station 1).kind = .fireInput ∧ (vault.station 4).kind = .hatchUnit
    ∧ (vault.station 6).kind = .actuator ∧ (vault.station 5).kind = .courierTerminal
    ∧ (vault.station 3).kind = .reader ∧ (vault.station 3).role = .witness
    ∧ (vault.station 2).kind = .reader ∧ (vault.station 2).role = .door ∧ (vault.station 14).role ≠ .witness := by decide

/-- ResponsesAreForwardedAndDispatched: a SCAN of a reader without role. -/
theorem test_hyps_roleless_scan : (vault.station 14).kind = .reader ∧ (vault.station 14).role = .none
    ∧ State.dispatchCommand (vault.station 14) 14 ⟨251, 10, 0x13, []⟩ = some (.wrongStationScan 14 []) := by decide

def storedAs (p : StoredPayload) : State := vault.setStationRuntime 0 ⟨0, false, some p⟩

/-- ForwardingPolicies. -/
theorem test_hyps_forwarding : (vault.station 1).policy = .all ∧ (vault.station 2).policy = .none ∧ (vault.station 0).policy = .changes
    ∧ ((storedAs ⟨5, sampleFrame.payload⟩).stationRuntime 0).lastForwarded = some ⟨5, sampleFrame.payload⟩
    ∧ 5 = sampleFrame.payload.length ∧ 5 ≤ 16
    ∧ (vault.stationRuntime 0).lastForwarded = none ∧ ((storedAs ⟨17, []⟩).stationRuntime 0).lastForwarded = some ⟨17, []⟩
    ∧ vault.slp.queue.length < 48 ∧ 48 ≤ (siteFilled vault 48).slp.queue.length := by decide

def ticking (n : Nat) (c : Bool) : Timer := { Timer.zero with load := 9, remaining := n, running := true, continuous := c }

/-- IntervalTimerOperations. -/
theorem test_hyps_timers : Timer.zero.running = false ∧ (ticking 2 true).running = true ∧ (ticking 2 true).retrigger = false
    ∧ { ticking 2 true with retrigger := true }.retrigger = true ∧ (ticking 2 true).gated = false ∧ 1 < (ticking 2 true).remaining
    ∧ (ticking 1 false).remaining ≤ 1 ∧ (ticking 1 false).continuous = false ∧ (ticking 0 true).remaining ≤ 1
    ∧ (ticking 1 true).continuous = true := by decide

def atSecond (n : Nat) (s : State) : State := s.setSecondCount n

/-- SecondAndMinuteTicks. -/
theorem test_hyps_ticks : (atSecond 58 vault).tmb.secondCount < 59 ∧ (atSecond 59 vault).tmb.secondCount = 59
    ∧ (atSecond 59 (vaultIn .config)).active = false := by decide

def probeIn (p : ProbeState) : State := vault.setProbeState 0 p

/-- SampleSetsTheProbe: good samples at the bounds of their ranges, faulty ones next to them. -/
theorem test_hyps_sample : vault.serves 0 ∧ (vault.station 0).kind = .probe
    ∧ (let p : List Byte := [0x03, 0xE8, 0xFE, 0x70, 0]
       p.length = 5 ∧ nat1 p 4 = 0 ∧ nat2 p 0 ≤ 1000 ∧ -400 ≤ signed2 p 2 ∧ signed2 p 2 ≤ 850)
    ∧ (let p : List Byte := [0, 0, 0x03, 0x52, 0]
       p.length = 5 ∧ nat1 p 4 = 0 ∧ nat2 p 0 ≤ 1000 ∧ -400 ≤ signed2 p 2 ∧ signed2 p 2 ≤ 850)
    ∧ ¬ nat2 ([0x03, 0xE9, 0, 0, 0] : List Byte) 0 ≤ 1000 ∧ ¬ -400 ≤ signed2 ([0, 0, 0xFE, 0x6F, 0] : List Byte) 2
    ∧ ¬ signed2 ([0, 0, 0x03, 0x53, 0] : List Byte) 2 ≤ 850
    ∧ (probeIn .silent).probeState 0 ≠ .fault ∧ (probeIn .fault).probeState 0 = .fault := by decide

/-- ZoneReadingAndDewPoint. -/
theorem test_hyps_reading : ([(1000, -400), (0, 850)] : List (Nat × Int)) ≠ []
    ∧ (∀ v ∈ ([(1000, -400), (0, 850)] : List (Nat × Int)), v.1 ≤ 1000)
    ∧ (readingOf [(1000, -400), (0, 850)]).map Reading.t = some 225 ∧ (readingOf [(300, -1), (300, -2)]).map Reading.t = some (-2) := by
  decide

def climateIn (c : ClimateState) (candidate : Nat) : ClimateRec := { ClimateRec.fresh with state := c, candidate := candidate }

/-- EvaluationMovesTheClimateState: profile 1 has persistence 2. -/
theorem test_hyps_evaluation : readingOf [(400, 180)] = some ⟨400, 180, 60⟩ ∧ (climateIn .normal 1).candidate + 1 = profile1.persistence
    ∧ (climateIn .normal 0).candidate + 1 ≠ profile1.persistence
    ∧ ClimateState.normal.severity < (rawBand profile1 ⟨501, 180, 80⟩).severity
    ∧ rawBand profile1 ⟨400, 180, 60⟩ = .normal ∧ rawBand profile1 ⟨481, 180, 77⟩ = .warning
    ∧ (rawBand profile1 ⟨481, 180, 77⟩).severity < ClimateState.excursion.severity
    ∧ ClimateState.excursion.severity ≤ (heldBand profile1 ⟨481, 180, 77⟩).severity
    ∧ (heldBand profile1 ⟨480, 180, 76⟩).severity < ClimateState.excursion.severity := by decide

/-- EvaluationReportsInOrder has no hypotheses. ExposureGrowsByTheExcess. -/
theorem test_hyps_exposure : (vaultIn .config).active = false ∧ (vaultAt .excursion 501).active = true
    ∧ ((vaultAt .excursion 501).climate 3).state = .excursion ∧ ((vaultAt .excursion 501).climate 3).reading = some ⟨501, 180, 100⟩
    ∧ ((vaultAt .critical 199).climate 3).state = .critical ∧ (vault.climate 3).state = .noData
    ∧ ((vaultAt .excursion 501).climateMinute.climate 3).exposure = 1 := by decide

/-- ZoneProfileEvaluatesTheZone and ZoneClearExposureClearsTheAccount. -/
theorem test_hyps_zone_requests : vault.ready ∧ vault.active = true ∧ (vaultIn .config).ready ∧ (vaultIn .config).active = false
    ∧ 15 ≤ 15 ∧ 3 ≤ 3 ∧ 15 < 16 ∧ 3 < 4 := by decide

def staged (s : State) (i : Nat) (g : Stage) : State := s.setInputStage i g
def hatchAt (p : Position) (silent : Bool) : State :=
  vault.setHatchRuntime 0 { vault.hatchRuntime 0 with position := p, unitSilent := silent }

/-- The vault with hatch 0 opening into zone 3. -/
def withInner (s : State) : State := { s with hoc := { s.hoc with hatches := [(0, { hatch0 with inner := 3 })] } }

/-- StagesUnmonitoredAndReleaseGate. -/
theorem test_hyps_stages : vault.serves 12 ∧ (vault.station 12).kind = .fireInput ∧ (vault.station 12).zone = some 3
    ∧ vault.inputStage 2 = .noReport
    ∧ vault.inputKind 2 = .holdSwitch ∧ vault.inputKind 3 = .releaseSwitch ∧ vault.inputKind 1 = .heat ∧ vault.inputKind 0 = .smoke
    ∧ vault.fireState 3 ≠ .releaseCountdown ∧ (vaultFire .releaseCountdown).fireState 3 = .releaseCountdown
    ∧ (staged (vaultFire .releaseCountdown) 2 .high).inputStage 2 = .high
    ∧ (vaultFire .alarm).fireState 3 = .alarm ∧ (vault.zone 3).fitted = true
    ∧ (∃ e ∈ (staged vault 0 .clear).inputsOf 3 (fun k => k = .smoke || k = .heat), (staged vault 0 .clear).inputStage e.index = .clear)
    ∧ ¬ (∃ e ∈ vault.inputsOf 3 (fun k => k = .smoke || k = .heat),
          vault.inputStage e.index = .clear ∨ vault.inputStage e.index = .low ∨ vault.inputStage e.index = .high)
    ∧ (vault.fire 3).unmonitored = false
    ∧ ((vault.setFire 3 { FireRec.fresh with unmonitored := true }).fire 3).unmonitored = true
    ∧ (∃ p ∈ vault.stationList, p.2.zone = some 3) ∧ ¬ (∃ p ∈ vault.stationList, p.2.zone = some 9)
    ∧ (∃ e ∈ (staged vault 2 .high).inputsOf 3 (fun k => k = .holdSwitch), (staged vault 2 .high).inputStage e.index = .high)
    ∧ ¬ (∃ e ∈ vault.inputsOf 3 (fun k => k = .holdSwitch), vault.inputStage e.index = .high)
    ∧ vault.hatchByInner 3 = some (0, hatch0) ∧ ((hatchAt .opened false).hatchRuntime 0).position ≠ .closedLocked
    ∧ ((hatchAt .closedLocked false).hatchRuntime 0).position = .closedLocked
    ∧ ((hatchAt .closedLocked false).hatchRuntime 0).unitSilent = false := by decide

/-- FireEvaluationDecides: each condition, and its neighbour. -/
theorem test_hyps_fire_evaluation : (vaultFire .alarm).fireState 3 = .alarm ∧ (vaultFire .preAlarm).fireState 3 = .preAlarm
    ∧ (staged vault 1 .high).alarmCause 3 = some .heat ∧ (staged vault 0 .high).alarmCause 3 = some .single
    ∧ (staged vault 0 .low).alarmCause 3 = none ∧ (staged vault 0 .low).preAlarmHolds 3 = true ∧ vault.preAlarmHolds 3 = false
    ∧ (vault.setFire 3 { FireRec.fresh with coupledSources := [5] }).preAlarmHolds 3 = true
    ∧ (handedTo vault (.coupledZoneEvaluation 5)).active = true
    ∧ Instr.coupledZoneEvaluation 5 ∈ (handedTo vault (.coupledZoneEvaluation 5)).handed := by decide

/-- The vault with a second smoke input in zone 3 and the heat input a call point. -/
def vaultDetectors (first second : Stage) : State :=
  { vault with
    cgt := { vault.cgt with stations := vault.cgt.stations ++ [(20, ⟨20, .fireInput, some 3, .none, 9, .all⟩)] }
    frs := { vault.frs with inputs := [(1, .callPoint), (2, .holdSwitch), (3, .releaseSwitch)], stages := [(0, first), (9, second)] } }

theorem test_hyps_fire_causes : (vaultDetectors .low .low).alarmCause 3 = some .coincidence
    ∧ (vaultDetectors .low .clear).alarmCause 3 = none ∧ (vaultDetectors .high .clear).alarmCause 3 = some .single
    ∧ (staged (vaultDetectors .low .low) 1 .high).alarmCause 3 = some .callPoint := by decide

/-- AlarmCountdownAndRelease. -/
theorem test_hyps_release : Instr.releaseTimerExpiry 3 ∈ (handedTo (vaultFire .releaseCountdown) (.releaseTimerExpiry 3)).handed
    ∧ (vaultFire .releaseCountdown).fireState 3 = .releaseCountdown ∧ vault.fireState 3 ≠ .releaseCountdown := by decide

/-- R88: a release timer triggered and gated after its expiry was handed is stopped and ungated when the zone is RELEASED. -/
theorem test_release_stops_its_timer :
    let held := (vaultFire .releaseCountdown).setReleaseTimer 3 { Timer.zero with load := 30, remaining := 30, running := true, gated := true }
    (held.releaseExpired 3).fireState 3 = .released ∧ (held.releaseExpired 3).releaseTimer 3 = { Timer.zero with load := 30 } := by decide

/-- FireRequests: every refusal and every acceptance. -/
theorem test_hyps_fire_requests : vault.ready ∧ (vaultIn .config).active = false ∧ vault.fireState 3 ≠ .alarm ∧ vault.fireState 3 ≠ .released
    ∧ (vaultFire .released).fireState 3 = .released ∧ (vault.zone 0).fitted = false ∧ (vault.zone 3).fitted = true
    ∧ vault.fireState 3 = .quiet ∧ (vaultFire .releaseCountdown).fireState 3 = .releaseCountdown ∧ (vaultFire .alarm).fireState 3 = .alarm
    ∧ (vault.fireState 3).latched = false ∧ ((vaultFire .alarm).fireState 3).latched = true
    ∧ (staged vault 0 .clear).inputsOf 3 (fun k => k = .smoke || k = .heat || k = .callPoint)
        = [⟨2, .fireInput, some 3, .none, 0, .all⟩] ++ ⟨7, .fireInput, some 3, .none, 1, .all⟩ :: []
    ∧ (staged vault 0 .clear).inputStage 0 = .clear ∧ (staged vault 0 .clear).inputStage 1 ≠ .clear
    ∧ (∀ i ∈ (staged (staged vault 0 .clear) 1 .clear).inputsOf 3 (fun k => k = .smoke || k = .heat || k = .callPoint),
        (staged (staged vault 0 .clear) 1 .clear).inputStage i.index = .clear) := by decide

/-! Custody -/

def scanOf (intent : Byte) (id : Ident) : List Byte := intent :: id
/-- The vault with zone 3 supervised, in a climate state, and `idA` shelved. -/
def shelfIn (c : ClimateState) : State := (vaultAt c 400).setFire 3 FireRec.fresh
def heldBy (manual agent : Bool) : State := (shelfIn .normal).setMedia 0 (some ⟨idA, 0, 3, .shelved, manual, agent⟩)

/-- TakeIsCheckedInOrder. -/
theorem test_hyps_take : vault.serves 2 ∧ Tab.wf none vault.csu.media = true ∧ (vault.station 2).kind = .reader
    ∧ (vault.station 2).role = .door ∧ (scanOf 0 idA).length = 9 ∧ (scanOf 0 idA).head? = some 0
    ∧ (field (scanOf 0 idA) 1 8).all identChar = true ∧ (vaultIn .autonomous).serves 2 ∧ vault.mga.partState ≠ .autonomous
    ∧ vault.mediaById (field (scanOf 0 idB) 1 8) = none
    ∧ vault.mediaById (field (scanOf 0 idA) 1 8) = some (0, ⟨idA, 0, 3, .shelved, false, false⟩)
    ∧ (vault.station 2).zone = some 3 ∧ (vault.setMedia 0 (some ⟨idA, 0, 4, .shelved, false, false⟩)).mediaAt 0
        = some ⟨idA, 0, 4, .shelved, false, false⟩
    ∧ (vaultHolding .out).mediaById idA = some (0, ⟨idA, 0, 3, .out, false, false⟩)
    ∧ (heldBy false true).mediaById idA = some (0, ⟨idA, 0, 3, .shelved, false, true⟩)
    ∧ (vaultFire .preAlarm).fireState 3 ≠ .quiet ∧ (shelfIn .normal).fireState 3 = .quiet ∧ ((shelfIn .normal).fire 3).unmonitored = false
    ∧ ((shelfIn .normal).setClimate 3 { ClimateRec.fresh with exposed := true }).serves 2
    ∧ ((shelfIn .normal).climate 3).exposed = false ∧ ((shelfIn .critical).climate 3).state ∈ [ClimateState.noData, .critical]
    ∧ ((shelfIn .excursion).climate 3).state = .excursion ∧ ((shelfIn .excursion).zone 3).takeLimit = .warning
    ∧ ((shelfIn .warning).climate 3).state = .warning ∧ (shelfIn .warning).mediaById idA = some (0, ⟨idA, 0, 3, .shelved, false, false⟩)
    ∧ (vault.classEntry 0).loan = 30 ∧ (vault.classEntry 1).loan = 0 := by decide

def lent (due : Option Minute) : State := vaultHolding (.checkedOut 0 due false)
def atMinute (n : Minute) (s : State) : State := { s with tmb := { s.tmb with minuteClock := n } }

/-- ReturnsAndScanReports. -/
theorem test_hyps_returns : (scanOf 1 idA).length = 9 ∧ (scanOf 1 idA).head? = some 1 ∧ (field (scanOf 1 idA) 1 8).all identChar = true
    ∧ vault.mediaById (field (scanOf 1 idB) 1 8) = none
    ∧ vault.mediaById (field (scanOf 1 idA) 1 8) = some (0, ⟨idA, 0, 3, .shelved, false, false⟩)
    ∧ (lent none).mediaById idA = some (0, ⟨idA, 0, 3, .checkedOut 0 none false, false, false⟩)
    ∧ (lent (some 5)).mediaById idA = some (0, ⟨idA, 0, 3, .checkedOut 0 (some 5) false, false, false⟩)
    ∧ (atMinute 5 (lent (some 5))).tmb.minuteClock ≤ 5 ∧ 5 < (atMinute 6 (lent (some 5))).tmb.minuteClock
    ∧ ((vaultFire .alarm).fireState 3).latched = true ∧ (vault.fireState 3).latched = false
    ∧ vault.serves 3 ∧ vault.serves 5 ∧ vault.serves 14 ∧ (vault.station 14).kind = .reader ∧ (vault.station 14).role = .none
    ∧ (vault.station 3).role = .witness ∧ (scanOf 2 idA).head? ≠ some 3 ∧ (vault.station 5).kind = .courierTerminal
    ∧ ([] : List Byte).head? ∉ [some 1, some 2, some 3] ∧ ([1] : List Byte).length ≠ 9 ∧ (scanOf 4 idA).head? ≠ some 2
    ∧ (scanOf 3 idA).length = 9 ∧ (scanOf 3 idA).head? = some 3 ∧ (3 : Byte).toNat ≤ 3 ∧ ¬ (4 : Byte).toNat ≤ 3
    ∧ (lent (some 5)).mediaAt 0 = some ⟨idA, 0, 3, .checkedOut 0 (some 5) false, false, false⟩ := by decide

/-- ReturnsAndScanReports, the TRANSACTION notice: a free slot, and the record after each granted scan and a refused one. -/
theorem test_hyps_transactions : vault.mediaAt 1 = none ∧ vault.mediaAt 0 = some ⟨idA, 0, 3, .shelved, false, false⟩
    ∧ (lent (some 5)).mediaAt 0 = some ⟨idA, 0, 3, .checkedOut 0 (some 5) false, false, false⟩
    ∧ (lent none).mediaAt 0 = some ⟨idA, 0, 3, .checkedOut 0 none false, false, false⟩
    ∧ (vaultHolding (.acclimatizing 9)).mediaAt 0 = some ⟨idA, 0, 3, .acclimatizing 9, false, false⟩ ∧ Outcome.state ≠ .granted
    ∧ ((vaultHolding (.acclimatizing 9)).transactionNotice (vault.station 2) (scanOf 1 idA) .granted (some 0)).drop 29
        = [0, 1, 0, 0, 0, 9, 0] := by decide

def scanAt (s : State) (n : Option Nat) (entries : List (Nat × Ident)) (further : Bool) : State :=
  s.setScan ⟨n, further, 0, entries, 0⟩
def sweepAt (s : State) (n : Option (Nat × Nat)) (queue : List Nat) (entries : List (Nat × Ident)) : State :=
  s.setSweep ⟨n, queue, entries, 0⟩
def sixteen (n : Nat) : List (Nat × Ident) := List.replicate n (0, idA)

/-- MinuteScanAndAgentSweep. -/
theorem test_hyps_visits : vault.csu.scan.position = none ∧ (scanAt vault (some 4094) [] false).csu.scan.position = some 4094
    ∧ 4094 < 4095 ∧ (scanAt vault (some 4095) [] true).csu.scan.position = some 4095
    ∧ ((shelfIn .warning).climate 3).state ∈ [ClimateState.normal, .warning] ∧ (7 : Minute) ≤ (atMinute 7 vault).tmb.minuteClock
    ∧ (atMinute 7 vault).tmb.minuteClock < 8 ∧ ((shelfIn .excursion).climate 3).state ∉ [ClimateState.normal, .warning]
    ∧ (6 : Minute) < (atMinute 7 vault).tmb.minuteClock
    ∧ (scanAt vault none (sixteen 14) false).csu.scan.entries.length < 15
    ∧ 15 ≤ (scanAt vault none (sixteen 15) false).csu.scan.entries.length
    ∧ (scanAt vault none [] false).csu.scan.entries = [] ∧ (scanAt vault (some 4095) [] true).csu.scan.further = true
    ∧ vault.active = true ∧ (vaultIn .config).active = false
    ∧ vault.csu.sweep.running = none ∧ (sweepAt vault (some (3, 4094)) [] []).csu.sweep.running = some (3, 4094)
    ∧ (sweepAt vault (some (3, 4095)) [5] []).csu.sweep.running = some (3, 4095)
    ∧ (sweepAt vault (some (3, 4095)) [5] []).csu.sweep.queue = 5 :: [] ∧ vault.csu.sweep.queue = []
    ∧ (sweepAt vault none [] (sixteen 14)).csu.sweep.entries.length < 15
    ∧ 15 ≤ (sweepAt vault none [] (sixteen 15)).csu.sweep.entries.length ∧ 4 ∉ (sweepAt vault (some (3, 0)) [5] []).csu.sweep.queue
    ∧ 5 ∈ (sweepAt vault (some (3, 0)) [5] []).csu.sweep.queue := by decide

/-- ItemOperations: a free slot, and a record in each custody state. -/
theorem test_hyps_items : vault.mediaAt 1 = none ∧ vault.mediaAt 0 = some ⟨idA, 0, 3, .shelved, false, false⟩
    ∧ (vaultHolding (.consigned 7)).mediaAt 0 = some ⟨idA, 0, 3, .consigned 7, false, false⟩
    ∧ (vaultHolding (.arriving 7)).mediaAt 0 = some ⟨idA, 0, 3, .arriving 7, false, false⟩
    ∧ (vaultHolding .out).mediaAt 0 = some ⟨idA, 0, 3, .out, false, false⟩ := by decide

/-- MediaRequests, but for a full table. -/
theorem test_hyps_media : vault.ready ∧ idA.length = 8 ∧ idA.all identChar = true ∧ vault.mediaById idB = none
    ∧ vault.mediaById idA = some (0, ⟨idA, 0, 3, .shelved, false, false⟩) ∧ Tab.wf none vault.csu.media = true
    ∧ vault.mediaAt 0 ≠ none ∧ vault.mediaAt 1 = none ∧ (∀ k, k < 1 → vault.mediaAt k ≠ none)
    ∧ (vaultHolding .out).mediaById idA = some (0, ⟨idA, 0, 3, .out, false, false⟩)
    ∧ (vaultHolding (.consigned 7)).mediaById idA = some (0, ⟨idA, 0, 3, .consigned 7, false, false⟩)
    ∧ (vaultFire .preAlarm).fireState 3 ≠ .quiet ∧ vault.fireState 3 = .quiet := by decide

/-- MediaRequests: malformed identifiers and hold codes. -/
theorem test_hyps_media_malformed : ([65] : Ident).length ≠ 8 ∧ ((List.replicate 8 0x20 : Ident)).all identChar = false ∧ 1 < 2 := by
  decide

/-- `n` slots from `k` on, each with the record of `idA`. -/
def fullFrom : Nat → Nat → Tab (Option MediaRec)
  | _, 0 => []
  | k, n + 1 => (k, some ⟨idA, 0, 3, .shelved, false, false⟩) :: fullFrom (k + 1) n

theorem fullFrom_read (n : Nat) : ∀ k i, k ≤ i → i < k + n → Tab.read none (fullFrom k n) i ≠ none := by
  induction n with
  | zero => intro k i h1 h2; omega
  | succ n ih =>
    intro k i h1 h2
    by_cases h : k = i
    · simp [fullFrom, Tab.read, h]
    · simp only [fullFrom, Tab.read, h, if_false]; exact ih (k + 1) i (by omega) (by omega)

theorem fullFrom_wf (n : Nat) : ∀ k lo, lo ≤ k → Tab.wfFrom none lo (fullFrom k n) = true := by
  induction n with
  | zero => intro _ _ _; rfl
  | succ n ih => intro k lo h; simp [fullFrom, Tab.wfFrom, h, ih]

theorem fullFrom_ids (n : Nat) : ∀ k, (fullFrom k n).findSome? (fun p => match p.2 with
    | some r => if r.id = idB then some (p.1, r) else none
    | none => none) = none := by
  induction n with
  | zero => intro _; rfl
  | succ n ih => intro k; simp only [fullFrom, List.findSome?_cons]; exact ih (k + 1)

def fullVault : State := { vault with csu := { vault.csu with media := fullFrom 0 4096 } }

/-- MediaRequests: a full table. -/
theorem test_hyps_media_full : fullVault.ready ∧ fullVault.mediaById idB = none ∧ (∀ k, k < 4096 → fullVault.mediaAt k ≠ none)
    ∧ Tab.wf none fullVault.csu.media = true :=
  ⟨⟨rfl, rfl⟩, fullFrom_ids 4096 0, fun k h => fullFrom_read 4096 0 k (Nat.zero_le k) (by omega), fullFrom_wf 4096 0 0 (Nat.le_refl 0)⟩

/-! Handovers -/

/-- The vault with the courier terminal and the witness reader of hatch 0 exchanged. -/
def crossed : State := { vault with hoc := { vault.hoc with hatches := [(0, { hatch0 with terminal := 4, witness := 6 })] } }

/-- HatchFramesAreAnsweredInOrder. -/
theorem test_hyps_hatch_frames : vault.serves 5 ∧ (vault.station 5).kind = .courierTerminal ∧ vault.serves 3
    ∧ (vault.station 3).kind = .reader ∧ (vault.station 3).role = .witness ∧ (noHatch vault).hatchByStation 6 = none
    ∧ vault.hatchByStation 6 = some (0, hatch0) ∧ vault.hatchByStation 4 = some (0, hatch0)
    ∧ hatch0.terminal ≠ 4 ∧ hatch0.witness ≠ 6 ∧ courier.length = 8 ∧ (field courier 0 8).all identChar = true
    ∧ (field (List.replicate 8 0x20) 0 8).all identChar = false
    ∧ (vaultWith .outbound .transfer).activeOn 0 = some (consigned .outbound .transfer)
    ∧ (vaultWith .inbound .transfer).activeOn 0 = some (consigned .inbound .transfer)
    ∧ crossed.hatchByStation 6 = some (0, { hatch0 with terminal := 4, witness := 6 })
    ∧ (scanOf 2 idA).head? = some 2 ∧ (scanOf 3 idA).head? = some 3 := by decide

/-- The vault ready for an ARRIVE: zone 3 in a climate state, its consignment waiting. -/
def readyFor (d : Direction) : State := (shelfIn .normal).addConsignment (consigned d .waiting)

/-- ArriveIsCheckedInOrder. -/
theorem test_hyps_arrive : (readyFor .inbound).serves 5 ∧ (readyFor .inbound).hatchByStation 6 = some (0, hatch0) ∧ hatch0.terminal = 6
    ∧ vault.hatch 0 = hatch0 ∧ (vaultWith .outbound .offered).activeOn 0 ≠ none ∧ (readyFor .inbound).activeOn 0 = none
    ∧ (vaultIn .autonomous).serves 5 ∧ vault.hoc.consignments = []
    ∧ (readyFor .inbound).hoc.consignments = [] ++ consigned .inbound .waiting :: [] ∧ (consigned .inbound .waiting).courier = field courier 0 8
    ∧ (heldBy true false).mediaAt 0 = some ⟨idA, 0, 3, .shelved, true, false⟩
    ∧ (readyFor .outbound).mediaAt 0 = some ⟨idA, 0, 3, .shelved, false, false⟩
    ∧ (vaultFire .preAlarm).fireState 3 ≠ .quiet ∧ (readyFor .outbound).fireState 3 = .quiet
    ∧ ((readyFor .outbound).fire 3).unmonitored = false ∧ hatch0.outer = none
    ∧ ((shelfIn .critical).climate 3).state ∈ [ClimateState.noData, .critical] ∧ ((readyFor .outbound).climate 3).state = .normal
    ∧ (atPosition vault .opened).hatchRuntime 0 ≠ vault.hatchRuntime 0 ∧ ((readyFor .outbound).hatchRuntime 0).position = .closedLocked
    ∧ ((readyFor .outbound).hatchRuntime 0).manual = false := by decide

/-- An inbound consignment with a case temperature, over zone 3 with dew point 100 and margin 20. -/
def withCase (st : ConsignState) (t : Int) : Consignment := { consigned .inbound st with caseTemp := some t }
def caseVault (st : ConsignState) : State := (shelfIn .normal).addConsignment (consigned .inbound st)

/-- CaseGateAndOffer: the gate at 120 and 119. -/
theorem test_hyps_case : (caseVault .awaitCase).serves 5 ∧ (caseVault .awaitCase).activeOn 0 = some (consigned .inbound .awaitCase)
    ∧ (caseVault .equalizing).activeOn 0 = some (consigned .inbound .equalizing) ∧ vault.activeOn 0 = none
    ∧ (vaultWith .outbound .offered).activeOn 0 = some (consigned .outbound .offered)
    ∧ (caseVault .equalizing).gatePasses (withCase .equalizing 120) = true
    ∧ (caseVault .equalizing).gatePasses (withCase .equalizing 119) = false
    ∧ (caseVault .offered).activeOn 0 = some (consigned .inbound .offered)
    ∧ ((caseVault .awaitCase).climate 3).reading = some ⟨400, 180, 100⟩ ∧ (vault.climate 3).reading = none := by decide

/-- The gate of an outbound consignment whose hatch opens into zone 4. -/
def outerVault (td : Int) : State :=
  let s := (shelfIn .normal).setClimate 4 { ClimateRec.fresh with state := .normal, reading := some ⟨400, 200, td⟩ }
  { s with hoc := { s.hoc with hatches := [(0, { hatch0 with outer := some 4, mode := .paced })] } }

theorem test_hyps_outbound_gate : (outerVault 160).gatePasses (consigned .outbound .equalizing) = true
    ∧ (outerVault 161).gatePasses (consigned .outbound .equalizing) = false ∧ ((outerVault 160).hatch 0).mode = .paced := by decide

/-- AcceptConfirmAndUnlock. -/
theorem test_hyps_accept : vault.serves 5 ∧ vault.serves 3 ∧ vault.hatchByStation 6 = some (0, hatch0) ∧ vault.hatchByStation 4 = some (0, hatch0)
    ∧ ([0, 7] : List Byte).length = 2 ∧ nat2 ([0, 7] : List Byte) 0 = 7 ∧ vault.activeOn 0 = none
    ∧ (vaultWith .outbound .offered).activeOn 0 = some (consigned .outbound .offered) ∧ (consigned .outbound .offered).number = 7
    ∧ (vaultWith .outbound .transfer).activeOn 0 = some (consigned .outbound .transfer) ∧ nat2 ([0, 8] : List Byte) 0 ≠ 7
    ∧ hatch0.mode = .witnessed ∧ { consigned .outbound .offered with acceptReceived := true, confirmReceived := true }.state = .offered
    ∧ ((vault.setHatchRuntime 0 { HatchRuntime.fresh with dwellDone := true }).hatchRuntime 0).dwellDone = true
    ∧ vault.fireState 3 = .quiet := by decide

def lastItem : Item := ⟨idA, 0, .pending⟩
def twoItems : Consignment := { consigned .outbound .transfer with items := [⟨idA, 0, .pending⟩, ⟨idB, 1, .pending⟩] }
def passedItem : Consignment := { consigned .outbound .transfer with items := [⟨idA, 0, .passed⟩] }
def figures : FrozenFigures := ⟨100, 500, 30, 180, 400⟩

/-- TransferAndClosing. -/
theorem test_hyps_transfer : vault.serves 5 ∧ (field (scanOf 2 idA) 1 8).all identChar = true
    ∧ (vaultWith .outbound .transfer).activeOn 0 = some (consigned .outbound .transfer) ∧ (consigned .outbound .transfer).direction ≠ .inbound
    ∧ (consigned .outbound .closing).state ≠ .transfer ∧ (∀ i ∈ (consigned .outbound .transfer).items, i.id ≠ field (scanOf 2 idB) 1 8)
    ∧ (consigned .outbound .transfer).items.find? (fun j => j.id = field (scanOf 2 idA) 1 8) = some lastItem ∧ lastItem.status = .pending
    ∧ passedItem.items.find? (fun j => j.id = field (scanOf 2 idA) 1 8) = some ⟨idA, 0, .passed⟩
    ∧ (twoItems.items.map (fun j => if j.id = lastItem.id then { j with status := .passed } else j)).map Item.status = [.passed, .pending]
    ∧ (vaultHolding (.arriving 7)).mediaAt 0 = some ⟨idA, 0, 3, .arriving 7, false, false⟩
    ∧ (vault.classEntry 0).baseHold ≤ 1023 ∧ ClassEntry.mk 1023 63 63 0 = ClassEntry.mk 1023 63 63 0
    ∧ acclimatizationHold figures ⟨60, 2, 1, 30⟩ = 60 ∧ acclimatizationHold { figures with minutes := 600 } ⟨60, 2, 1, 30⟩ = 86
    ∧ ((atPosition vault .closedUnlocked).hatchRuntime 0).position = .closedUnlocked
    ∧ ((atPosition vault .opened).hatchRuntime 0).position = .opened ∧ ((atPosition vault .fault).hatchRuntime 0).position = .fault
    ∧ (vault.hatchRuntime 0).position = .closedLocked ∧ (vault.hatchRuntime 0).unitSilent = false ∧ hatch0.mode ≠ .paced := by decide

/-- PositionsAbortsAndRemovals: a report from the unit, and each state a consignment beyond WAITING can be in. -/
theorem test_hyps_positions : vault.serves 4 ∧ (vault.station 4).kind = .hatchUnit ∧ (noHatch vault).hatchByUnit 5 = none
    ∧ vault.hatchByUnit 5 = some (0, hatch0) ∧ (vault.hatchRuntime 0).position = .closedLocked
    ∧ (vaultWith .outbound .waiting).activeOn 0 = none ∧ (vaultWith .outbound .awaitCase).activeOn 0 = some (consigned .outbound .awaitCase)
    ∧ (vaultWith .outbound .unlocking).activeOn 0 = some (consigned .outbound .unlocking)
    ∧ (vaultWith .outbound .closing).activeOn 0 = some (consigned .outbound .closing)
    ∧ (vaultWith .outbound .aborting).activeOn 0 = some (consigned .outbound .aborting)
    ∧ manualAfter { HatchRuntime.fresh with manual := true, moved := true } .closedLocked = HatchRuntime.fresh := by decide

/-- TransferAndClosing and PositionsAbortsAndRemovals: a hatch CLOSED_LOCKED whose unit is SILENT. -/
theorem test_hyps_silent_position : ((hatchAt .closedLocked true).hatchRuntime 0).position = .closedLocked
    ∧ ((hatchAt .closedLocked true).hatchRuntime 0).unitSilent = true
    ∧ ((hatchAt .closedLocked true).tellReturned (vault.station 4)).hatchRuntime 0 = HatchRuntime.fresh := by decide

/-- ExpiriesAndZoneReports. -/
theorem test_hyps_expiries : Instr.stepTimerExpiry 0 ∈ (handedTo vault (.stepTimerExpiry 0)).handed
    ∧ Instr.dwellTimerExpiry 0 ∈ (handedTo vault (.dwellTimerExpiry 0)).handed
    ∧ Instr.zoneReport 3 .evaluated ∈ (handedTo vault (.zoneReport 3 .evaluated)).handed
    ∧ (vaultIn .config).active = false ∧ vault.hatchesInUse = [(0, hatch0)] ∧ hatch0.inner = 3
    ∧ (vaultWith .inbound .equalizing).activeOn 0 = some (consigned .inbound .equalizing)
    ∧ (caseVault .equalizing).gatePasses (withCase .equalizing 120) = true := by decide

def eightConsignments : State :=
  { vault with hoc := { vault.hoc with consignments := List.replicate 8 (consigned .outbound .waiting) } }

/-- ConsignAndCancel: every refusal and every acceptance. -/
theorem test_hyps_consign : vault.ready ∧ 2 > 1 ∧ (∀ x ∈ courier :: [idA], x.length = 8 ∧ x.all identChar = true)
    ∧ 8 ≤ eightConsignments.hoc.consignments.length ∧ ¬ 8 ≤ vault.hoc.consignments.length
    ∧ (vaultWith .outbound .waiting).consignment 7 = some (consigned .outbound .waiting) ∧ vault.consignment 7 = none
    ∧ 24 < 25 ∧ 3 < 4 ∧ (vault.hatch 1).unit = 0 ∧ (vault.hatch 0).unit ≠ 0
    ∧ vault.mediaById idB = none ∧ vault.mediaById idA = some (0, ⟨idA, 0, 3, .shelved, false, false⟩)
    ∧ (vaultHolding .out).mediaById idA = some (0, ⟨idA, 0, 3, .out, false, false⟩)
    ∧ (heldBy true false).mediaById idA = some (0, ⟨idA, 0, 3, .shelved, true, false⟩) ∧ [idA].Nodup ∧ idA ∈ [idA]
    ∧ (vaultWith .outbound .aborting).consignment 7 = some (consigned .outbound .aborting)
    ∧ (vaultWith .outbound .offered).consignment 7 = some (consigned .outbound .offered)
    ∧ (vaultIn .config).active = false ∧ (vault.hatch 0).life = 60
    ∧ 60 ≤ ((atMinute 60 vault).tmb.minuteClock - (consigned .outbound .waiting).created).toNat := by decide

/-! Alerts and fallback -/

def alerted (k : AlertKind) (r : AlertRec) : State := vault.setAlertRec k.code r

/-- AlertsRiseLatchAndFall. -/
theorem test_hyps_alerts : (vault.alertRec 0).masked = false ∧ ((alerted .probeFault { AlertRec.fresh with masked := true }).alertRec 0).masked = true
    ∧ { vault with alb := { vault.alb with held := true } }.alb.held = true ∧ vault.alb.held = false
    ∧ vault.tmb.pulse.running = false ∧ (pulsing 5).tmb.pulse.running = true
    ∧ 4 ∈ ((alerted .probeFault { AlertRec.fresh with present := [4] }).alertRec 0).present ∧ 4 ∉ (vault.alertRec 0).present
    ∧ AlertKind.fireAlarm.isHeld = true ∧ AlertKind.probeFault.isHeld = false
    ∧ ((alerted .probeFault { AlertRec.fresh with count := 255 }).alertRec 0).count = 255 := by decide

/-- AlertRequests. -/
theorem test_hyps_alert_requests : vault.ready ∧ (∃ c ∈ [23], 22 < c) ∧ (∀ c ∈ [0, 22], c ≤ 22) ∧ 10 ∈ [12, 10] ∧ 10 ∉ [12, 11] ∧ 11 ∈ [12, 11]
    ∧ 11 ∉ [12] ∧ 10 ∉ [9, 13] ∧ 11 ∉ [9, 13] ∧ 12 ∉ [9, 13] ∧ (vault.alertRec 0).present = []
    ∧ ((alerted .probeFault { AlertRec.fresh with present := [4] }).alertRec 0).present ≠ [] := by decide

/-- FallbackCommandsOfAZone: the profile's limits and hysteresis band from both sides. -/
theorem test_hyps_fallback : profile1.high < 501 ∧ 500 ≤ profile1.high ∧ 299 < profile1.low ∧ profile1.low ≤ 300 ∧ profile1.low + profile1.hyst ≤ 320
    ∧ 480 + profile1.hyst ≤ profile1.high ∧ 319 < profile1.low + profile1.hyst ∧ profile1.high < 481 + profile1.hyst
    ∧ ((vaultAt .normal 480).climate 3).state ≠ .noData ∧ ((vaultAt .normal 480).climate 3).reading = some ⟨480, 180, 100⟩
    ∧ (vault.climate 3).state = .noData ∧ ((vaultFire .alarm).fireState 3).latched = true ∧ (vault.fireState 3).latched = false := by decide

def withTimeout (n : Nat) : State := vault.setMga { vault.mga with live := { vault.mga.live with supervisionTimeout := n } }

/-- SupervisionLossAndResume, RetryExpiryDrivesAgain and RequestsShareOneExchange. -/
theorem test_hyps_supervision : Instr.supervisionTimerExpiry ∈ (handedTo vault .supervisionTimerExpiry).handed
    ∧ vault.mga.partState = .supervised ∧ (vaultIn .autonomous).mga.partState ≠ .supervised ∧ (vaultIn .autonomous).ready
    ∧ vault.mga.partState ≠ .autonomous ∧ (vaultIn .autonomous).mga.live.supervisionTimeout ≠ 0
    ∧ (withTimeout 0).mga.live.supervisionTimeout = 0
    ∧ Instr.retryTimerExpiry true ∈ (handedTo (vaultIn .autonomous) (.retryTimerExpiry true)).handed
    ∧ (6, (⟨33, .actuator, some 3, .none, 0, .none⟩ : StationEntry)) ∈ vault.stationList
    ∧ ⟨33, 3, false, false⟩ ∈ vault.fallbackVisits ∧ ⟨34, 3, false, false⟩ ∈ vault.fallbackVisits := by decide

set_option maxRecDepth 8000 in
/-- R147: a timer triggered after its expiry was handed is stopped at the entry to ACTIVE_AUTONOMOUS, and a RESUME at timeout 0
leaves it stopped. -/
theorem test_autonomous_stops_its_timer :
    let running : Timer := { Timer.zero with load := 30, remaining := 30, running := true }
    (vault.setSupervision running).supervisionExpired.mga.partState = .autonomous
    ∧ (vault.setSupervision running).supervisionExpired.tmb.supervision = { Timer.zero with load := 30 }
    ∧ ((withTimeout 0).setSupervision running).startSupervision.tmb.supervision = { Timer.zero with load := 30 } := by decide

def restarting : State := vault.setMga { vault.mga with restartPending := true }
def checking (s : State) (expected : Nat) : State := s.setMga { s.mga with check := some ⟨0, expected⟩ }

theorem test_hyps_exchange : restarting.mga.restartPending = true ∧ (checking vault 0).mga.restartPending = false
    ∧ (checking vault 0).mga.check ≠ none ∧ requestHead (.ident 9) = some (0x01, 9)
    ∧ ([1, 0] : List Byte).length < 3 ∧ nat1 ([1, 0, 1] : List Byte) 2 ≠ ([1, 0, 1] : List Byte).length - 3
    ∧ nat1 ([0x09, 0, 0] : List Byte) 0 ∉ [0x01, 0x02, 0x03, 0x04, 0x05, 0x06, 0x07, 0x08, 0x10, 0x11, 0x12, 0x13, 0x14, 0x20, 0x21, 0x22, 0x23, 0x24, 0x25,
        0x30, 0x31, 0x40, 0x41, 0x42, 0x50, 0x51] := by decide

/-- ReadAnswersEachSelector. -/
theorem test_hyps_read : vault.ready ∧ nat2 ([0, 15, 0, 0, 0, 0, 0, 0] : List Byte) 0 < 16 ∧ 16 ≤ nat2 ([0, 16, 0, 0, 0, 0, 0, 0] : List Byte) 0
    ∧ vault.consignment 7 = none ∧ (vaultWith .outbound .waiting).consignment 7 = some (consigned .outbound .waiting)
    ∧ ((List.replicate 8 0x20 : List Byte)).all identChar = false ∧ vault.mediaById idB = none ∧ vault.mediaAt 4095 = none
    ∧ vault.mediaAt 0 = some ⟨idA, 0, 3, .shelved, false, false⟩ ∧ 0x0A < 0x0B := by decide

/-- ReadAnswersEachSelector, the records: two bytes of a signed value at both ends of its range. -/
theorem test_hyps_images : (-32768 : Int) ≤ -400 ∧ (850 : Int) < 32768 ∧ encSigned2 (-32768) = [0x80, 0] ∧ encSigned2 32767 = [0x7F, 0xFF]
    ∧ encSigned2 (-400) = [0xFE, 0x70] ∧ (lent (some 5)).mediaAt 0 ≠ none
    ∧ (MediaRec.image ⟨idA, 0, 3, .consigned 258, true, true⟩).drop 8 = [0, 3, 2, 3] ++ List.replicate 14 0 ++ [1, 2] := by decide

/-! Tables, activation and the store -/

def config (t : TableId) (n : Nat) : State := withWindow (vaultIn .config) (some (t, n))

/-- TableWindowOpensWritesReads. -/
theorem test_hyps_tables : vault.ready ∧ 7 < 8 ∧ TableId.ofCode 7 = some .cls ∧ TableId.cls.size ≤ 8 ∧ 7 < TableId.cls.size
    ∧ vault.mga.window = none ∧ (config .actuator 62).ready ∧ (config .actuator 62).mga.window = some (.actuator, 62)
    ∧ (config .actuator 62).active = false ∧ (withWindow vault (some (.actuator, 0))).active = true
    ∧ 62 + 2 ≤ TableId.actuator.size ∧ TableId.actuator.size < 63 + 2 ∧ ([4, 5] : List Byte).length = 2 * TableId.actuator.imageSize
    ∧ imageAccepted .actuator [5] = true ∧ imageAccepted .actuator [6] = false
    ∧ field ([4, 6] : List Byte) (1 * TableId.actuator.imageSize) TableId.actuator.imageSize = [6]
    ∧ 248 < 249 * TableId.actuator.imageSize ∧ 64 * TableId.actuator.imageSize ≤ 248 ∧ TableId.actuator.size < 0 + 65 := by decide

/-- StoredEntriesFollowTheirTables: an accepted image of each table with codes, and refused ones. -/
theorem test_hyps_entries : StationEntry.ofImage [254, 0, 15, 0, 200, 0] = some ⟨254, .probe, some 15, .none, 63, .all⟩
    ∧ StationEntry.ofImage [255, 0, 15, 0, 0, 0] = none ∧ StationEntry.ofImage [1, 0, 16, 0, 0, 0] = none
    ∧ InputKind.ofCode 4 = some .releaseSwitch ∧ Function.ofCode 5 = some .suppression
    ∧ (ZoneEntry.ofImage [3, 1, 0, 9, 9, 1, 0, 200, 4, 15, 0, 1, 2]).isSome = true
    ∧ (HatchEntry.ofImage (List.replicate 21 0)).isSome = true ∧ imageAccepted .fireInput [5] = false
    ∧ (storedAs ⟨0, []⟩).stationList ≠ [] ∧ State.reset.stationList = []
    ∧ (awaitingProbe vault).fsp.segment = .awaiting 0 1 false ∧ ((missedTimes 3 true).stationRuntime 0).silent = true := by decide

/-- A configuration that passes every test of ACTIVATE: four profiles, and the vault's other tables without the reader of no
role. -/
def sound0 : State :=
  { vaultIn .config with
    cgt := { vault.cgt with stations := stations.take 14 }
    cls := { vault.cls with profiles := [(0, profile1), (1, profile1), (2, profile1), (3, profile1)] } }
def withStation (s : State) (i : Nat) (e : StationEntry) : State := s.setStation i e
def withZone (s : State) (z : Nat) (e : ZoneEntry) : State := s.setZone z e

/-- ActivationChecksThenStarts: the check begins, ends unequal, ends equal. -/
theorem test_hyps_activate : vault.ready ∧ vault.active = true ∧ (vaultIn .config).ready ∧ (vaultIn .config).active = false
    ∧ vault.mga.check = none := by decide

/-- The sum of the tables does not depend on the check in progress, so a check can end with an equal sum and with another. -/
theorem test_hyps_activation_sum (s : State) (n : Nat) : (checking s n).mga.check = some ⟨0, n⟩
    ∧ (checking s n).tableBytes = s.tableBytes ∧ (checking s n).inconsistency = s.inconsistency := ⟨rfl, rfl, rfl⟩

theorem test_hyps_consistent : sound0.inconsistency = none ∧ (sound0.hatch 0).unit ≠ 0 := by decide

/-- Each test of ACTIVATE fails on a configuration that passes those before it. -/
theorem test_hyps_inconsistent :
    (withStation sound0 7 ⟨250, .actuator, some 3, .none, 1, .none⟩).inconsistency = some (.station, 7)
    ∧ (withStation sound0 14 ⟨10, .reader, none, .door, 0, .none⟩).inconsistency = some (.station, 14)
    ∧ (sound0.setProfile 2 Profile.zero).inconsistency = some (.profile, 2)
    ∧ (withZone sound0 5 { zone3 with coupled := [5, 0, 0, 0] }).inconsistency = some (.zone, 5)
    ∧ (withZone sound0 5 { zone3 with coupledCount := 0, coupled := [5, 0, 0, 0] }).inconsistency = none
    ∧ (withStation sound0 4 ⟨5, .other, none, .none, 0, .none⟩).inconsistency = some (.hatch, 0)
    ∧ (sound0.addConsignment { consigned .outbound .waiting with hatch := 2 }).inconsistency = some (.hatch, 2) := by decide

/-- DeactivateAndRestart: every refusal, and the acceptance. -/
theorem test_hyps_deactivate : (vaultIn .config).mga.partState = .config ∧ (vaultIn .autonomous).mga.partState = .autonomous
    ∧ (∃ c ∈ (vaultWith .outbound .offered).hoc.consignments, c.hatch = 0 ∧ c.state ≠ .waiting)
    ∧ ¬ (∃ c ∈ (vaultWith .outbound .waiting).hoc.consignments, c.hatch = 0 ∧ c.state ≠ .waiting)
    ∧ vault.mga.partState = .supervised ∧ vault.hoc.consignments = [] ∧ (vaultFire .preAlarm).fireState 3 ≠ .quiet
    ∧ (∀ y, y < 3 → (vaultFire .preAlarm).fireState y = .quiet ∧ ((vaultFire .preAlarm).fire y).coupledSources = [])
    ∧ (∀ z, z < 16 → vault.fireState z = .quiet ∧ (vault.fire z).coupledSources = [])
    ∧ (siteFilled vault 47).slp.queue.length < 48 ∧ 48 ≤ (siteFilled vault 48).slp.queue.length
    ∧ { noticeFrame with tag := .restartReply }.tag = .restartReply := by decide

def burnt (n : Nat) : State := vault.setMga { vault.mga with burns := { vault.mga.burns with siteAddress := n } }

/-- CommissioningStoreAndItsBurns: each item's range and every refusal. -/
theorem test_hyps_store : vault.ready ∧ 4 < 5 ∧ StoreItem.ofCode 4 = some .vaultId ∧ StoreItem.ofCode 1 = some .siteAddress
    ∧ StoreItem.siteAddress.taken 0 = none ∧ StoreItem.siteAddress.taken 255 = none ∧ StoreItem.siteAddress.taken 254 = some 254
    ∧ (withBurn vault (some ⟨.vaultId, 1, 0⟩)).mga.burn ≠ none ∧ (withBurn vault (some ⟨.vaultId, 1, 0⟩)).ready ∧ vault.mga.burn = none
    ∧ 4 ≤ (burnt 4).mga.burns.get .siteAddress ∧ (burnt 3).mga.burns.get .siteAddress < 4 ∧ 251 = vault.mga.stored.ownAddress
    ∧ 250 = vault.mga.live.siteAddress ∧ vault.stationList = vault.stationList.take 6 ++ (6, ⟨33, .actuator, some 3, .none, 0, .none⟩) ::
        vault.stationList.drop 7 ∧ (∀ q ∈ vault.stationList.take 6, q.2.addr ≠ 33) ∧ ¬ (∃ p ∈ vault.stationList, p.2.addr = 99)
    ∧ vault.mga.partState = .supervised ∧ (vaultIn .config).mga.partState ≠ .supervised := by decide

/-! The clauses about what an operation does, and the notices -/

def fireInputNowhere : StationEntry := ⟨8, .fireInput, none, .none, 2, .all⟩

/-- MissedCountAndSilentMark, the owner told: a probe with and without FAULT, a fire input of each kind from each stage, a hatch
unit with no hatch, with none active, with an abort under way and with another consignment, and the other station kinds. -/
theorem test_hyps_silent_owners : (vault.station 0).kind = .probe ∧ vault.probeState 0 ≠ .fault ∧ (probeIn .fault).probeState 0 = .fault
    ∧ (vault.station 12).kind = .fireInput ∧ (vault.station 12).zone = some 3 ∧ fireInputNowhere.kind = .fireInput
    ∧ fireInputNowhere.zone = none ∧ vault.inputStage 2 = .noReport ∧ (staged vault 2 .fault).inputStage 2 = .fault
    ∧ (staged vault 2 .silent).inputStage 2 = .silent ∧ (staged (vaultFire .releaseCountdown) 2 .high).inputStage 2 = .high
    ∧ (staged (vaultFire .releaseCountdown) 2 .high).fireState 3 = .releaseCountdown
    ∧ vault.inputKind 2 = .holdSwitch ∧ vault.fireState 3 ≠ .releaseCountdown ∧ vault.inputKind 3 = .releaseSwitch
    ∧ vault.inputKind 0 = .smoke ∧ vault.inputKind 1 = .heat ∧ (vault.station 4).kind = .hatchUnit
    ∧ (noHatch vault).hatchByUnit 5 = none ∧ vault.hatchByUnit 5 = some (0, hatch0) ∧ vault.activeOn 0 = none
    ∧ (vaultWith .outbound .aborting).activeOn 0 = some (consigned .outbound .aborting)
    ∧ (vaultWith .outbound .offered).activeOn 0 = some (consigned .outbound .offered)
    ∧ (vault.station 2).kind = .reader ∧ (vault.station 5).kind = .courierTerminal ∧ (vault.station 6).kind = .actuator
    ∧ (StationEntry.mk 11 .other none .none 0 .all).kind = .other := by decide

/-- A hold switch gone SILENT in its zone's countdown: the timer is triggered, and the release gate no longer holds it. -/
theorem test_silent_hold_switch :
    ((staged (vaultFire .releaseCountdown) 2 .high).tellSilent (vault.station 12)).inputStage 2 = .silent
    ∧ (vault.tellSilent (vault.station 4)).hatchRuntime 0
        = { HatchRuntime.fresh with unitSilent := true } := by decide

def atLimit (n : Nat) : State := vault.setClimate 3 { ClimateRec.fresh with exposure := n }

/-- ExposureGrowsByTheExcess, the test for EXPOSED: the limit of zone 3 is 100, that of zone 4 is 0. -/
theorem test_exposed_from_the_limit : (vault.zone 3).exposureLimit = 100 ∧ (vault.zone 4).exposureLimit = 0
    ∧ ((atLimit 100).climate 3).exposed = false ∧ ((atLimit 99).testExposed 3) = atLimit 99
    ∧ (((atLimit 100).testExposed 3).alertRec AlertKind.zoneExposed.code).present = [3]
    ∧ ((vaultAt .excursion 600).climateMinute.alertRec AlertKind.zoneExposed.code).present = [3] := by decide

set_option maxRecDepth 4000 in
/-- FireEvaluationDecides and MinuteScanAndAgentSweep, the notices: a coupled-source set is a set of zone numbers, and a MEDIA
notice of 16 entries at the last part number. -/
theorem test_hyps_notices : [0, 15].Nodup ∧ encZoneSet [0, 15] = [0x80, 0x01] ∧ 255 ≤ 255 ∧ (enc4 (0 : Minute)).length = 4
    ∧ (mediaNotice 1 [0, 0, 0, 3] 255 true (sixteen 16)).length = 169 := by decide

def manyItems (n : Nat) : Consignment := { consigned .outbound .offered with items := List.replicate n ⟨idA, 0, .pending⟩ }

/-- HatchFramesAreAnsweredInOrder, the HANDOVER notice: 12 and 13 items, and an item with and without a release minute. -/
theorem test_hyps_handover_notice : (manyItems 12).items.length ≤ 12 ∧ 12 < (manyItems 13).items.length
    ∧ (vault.handoverNotice (manyItems 12) 1 0 8).length = 1 ∧ (vault.handoverNotice (manyItems 13) 1 0 8).length = 2
    ∧ (vaultHolding (.acclimatizing 9)).mediaAt 0 = some ⟨idA, 0, 3, .acclimatizing 9, false, false⟩
    ∧ (vaultHolding (.acclimatizing 9)).itemRelease .inbound ⟨idA, 0, .passed⟩ = [0, 0, 0, 9]
    ∧ vault.itemRelease .inbound ⟨idA, 0, .passed⟩ = [0, 0, 0, 0] ∧ ItemStatus.pending ≠ .passed := by decide

/-- TransferAndClosing and ConsignAndCancel: a chime in a QUIET zone only, and the tail of a hatch's queue. -/
theorem test_chime_and_queue : vault.fireState 3 = .quiet ∧ (vaultFire .preAlarm).fireState 3 ≠ .quiet
    ∧ (vaultFire .preAlarm).chime 3 = vaultFire .preAlarm ∧ 1 ≠ (consigned .outbound .waiting).hatch
    ∧ ((vaultWith .outbound .waiting).addConsignment { consigned .inbound .waiting with number := 8 }).hatchQueue 0 = [7, 8] := by
  decide

/-- RetryExpiryDrivesAgain: ON to index 0 in zone 1 and OFF to index 1 in zone 2 keep the table order; within zone 1 OFF
precedes ON; a visit that waits sends nothing and keeps its place. -/
theorem test_off_before_on :
    let on1 : FallbackVisit := ⟨10, 1, true, false⟩
    let off1 : FallbackVisit := ⟨11, 1, false, false⟩
    let off2 : FallbackVisit := ⟨12, 2, false, false⟩
    let skipped : FallbackVisit := ⟨13, 1, false, true⟩
    offBeforeOn [on1, off2] = [on1, off2] ∧ offBeforeOn [on1, off2, off1] = [off2, off1, on1]
    ∧ offBeforeOn [on1, skipped] = [on1, skipped] ∧ offBeforeOn [skipped, on1, off1, off2] = [skipped, off1, on1, off2] := by decide

def clsWaiting (dst : Nat) : State := withOrdinary (vaultIn .autonomous) [item ⟨dst, 251, 0x22, [1]⟩ .cls]

/-- RetryExpiryDrivesAgain, both outcomes of a visit. -/
theorem test_hyps_retry_visits : ⟨33, 3, false, true⟩ ∈ (clsWaiting 33).fallbackVisits ∧ (clsWaiting 33).mga.partState = .autonomous
    ∧ (∀ v ∈ (vaultIn .autonomous).fallbackVisits, v.waits = false)
    ∧ ((FallbackVisit.mk 10 1 true false).waits = false ∧ (FallbackVisit.mk 10 1 true false).on = true) := by decide

/-- RequestsShareOneExchange: parameters of every length the kinds take, and of another. -/
theorem test_hyps_parameters : ([] : List Byte).length = 0 ∧ ([5] : List Byte).length = 1 ∧ ([5, 6] : List Byte).length = 2
    ∧ ([5, 6, 7] : List Byte).length = 3 ∧ idA.length = 8 ∧ (idA ++ [3]).length = 9 ∧ (idA ++ [0, 3, 0]).length = 11
    ∧ (let p : List Byte := [0, 1, 0, 0] ++ courier ++ [1] ++ idA
       p.length = 13 + 8 * nat1 p 12 ∧ readRequest ([0x30, 9, 21] ++ p) = .consign 9 1 0 0 courier [idA])
    ∧ (let p : List Byte := [0, 1, 0, 0] ++ courier ++ [2] ++ idA
       p.length ≠ 13 + 8 * nat1 p 12 ∧ readRequest ([0x30, 9, 21] ++ p) = .malformedRequest ([0x30, 9, 21] ++ p))
    ∧ readRequest [0x40, 9, 3, 2, 0, 22] = .clearAlerts 9 [0, 22] ∧ readRequest [0x41, 9, 3, 1, 1, 9] = .setMask 9 1 [9]
    ∧ readRequest [0x10, 9, 1, 3] = .malformedRequest [0x10, 9, 1, 3] := by decide

/-- StoredEntriesFollowTheirTables: each code of each table at its last allowed value, and next to it. -/
theorem test_hyps_accepted_images : imageAccepted .station [254, 6, 255, 2, 0, 2] = true ∧ imageAccepted .station [1, 7, 0, 0, 0, 0] = false
    ∧ imageAccepted .station [1, 0, 16, 0, 0, 0] = false ∧ imageAccepted .station [1, 0, 0, 3, 0, 0] = false
    ∧ imageAccepted .station [1, 0, 0, 0, 0, 3] = false ∧ imageAccepted .station [255, 0, 0, 0, 0, 0] = false
    ∧ imageAccepted .zone [9, 1, 0, 0, 9, 1, 1, 0, 9, 15, 15, 15, 15] = true ∧ imageAccepted .zone [0, 2, 0, 0, 0, 0, 0, 0, 0, 0, 0, 0, 0] = false
    ∧ imageAccepted .zone [0, 0, 0, 0, 0, 0, 0, 0, 0, 0, 0, 0, 16] = false
    ∧ imageAccepted .fireInput [4] = true ∧ imageAccepted .fireInput [5] = false
    ∧ imageAccepted .hatch (List.replicate 21 0) = true ∧ imageAccepted .hatch (5 :: List.replicate 20 0) = false
    ∧ imageAccepted .hatch ([5, 6, 4, 15, 255, 2, 0, 0, 0, 0, 0, 0, 1] ++ List.replicate 8 0) = true
    ∧ imageAccepted .hatch ([5, 6, 4, 16, 255, 2, 0, 0, 0, 0, 0, 0, 1] ++ List.replicate 8 0) = false := by decide

set_option maxRecDepth 8000 in
/-- StoredEntriesFollowTheirTables: images read back as they were stored, with a clamped field in each. -/
theorem test_images_read_back :
    (vault.storeEntry .station 20 [30, 1, 3, 0, 200, 2]).entryImage .station 20 = [30, 1, 3, 0, 95, 2]
    ∧ (vault.storeEntry .zone 4 [9, 1, 2, 3, 9, 1, 0, 200, 4, 15, 0, 1, 2]).entryImage .zone 4 = [3, 1, 2, 3, 4, 1, 0, 120, 4, 15, 0, 1, 2]
    ∧ (vault.storeEntry .probe 4 [0x80, 0x10]).entryImage .probe 4 = [0xC0, 0x10]
    ∧ (vault.storeEntry .cls 4 [0xFF, 0xFF, 64, 7, 1, 2]).entryImage .cls 4 = [3, 0xFF, 63, 7, 1, 2]
    ∧ (vault.storeEntry .hatch 1 ([11, 12, 13, 15, 255, 2, 0, 0, 0, 6, 0, 40, 1, 0, 7, 1, 0, 31, 0, 9, 101])).entryImage .hatch 1
        = [11, 12, 13, 15, 255, 2, 0, 10, 0, 6, 0, 40, 1, 0, 7, 1, 0, 30, 0, 9, 100] := by decide

/-- ActivationChecksThenStarts: the vault's check ends with the expected sum and passes every test. -/
theorem test_hyps_activate_accepted :
    let s := checking sound0 (activationSum sound0.tableBytes)
    s.mga.check = some ⟨0, activationSum s.tableBytes⟩ ∧ s.inconsistency = none ∧ Tab.wf .fresh s.cgt.runtime = true :=
  ⟨rfl, test_hyps_consistent.1, rfl⟩

/-- DeactivateAndRestart: a station that is SILENT, and one that is not. -/
theorem test_hyps_silent_stations : Tab.wf .fresh (missedTimes 3 true).cgt.runtime = true
    ∧ ((missedTimes 3 true).stationRuntime 0).silent = true ∧ ((missedTimes 3 true).station 0).addr = 1
    ∧ ((missedTimes 3 true).stationRuntime 1).silent = false := by decide

/-- The invariants: states with something in them that satisfy them. -/
theorem test_hyps_canonical : State.Canonical vault := by constructor <;> decide

theorem test_hyps_sound : State.Sound (siteFilled vault 48) where
  siteQueue := by decide
  transmitter := by decide
  ordinaryQueue := by decide
  urgentOnce := by decide
  missed := fun _ => show (0 ≤ 3 ∧ (false = true ↔ 0 = 3)) by decide
  secondCount := by decide
  exposure := fun _ => Nat.zero_le _
  consignments := by decide
  alertCount := fun _ => Nat.zero_le _
  held := by decide
  burns := fun i => by cases i <;> decide

theorem test_hyps_no_release : ∀ f ∈ (withUrgent vault [driveFrame 33]).urgentOutput, f.kind ≠ Kind.release := by decide

/-- CommissioningStoreAndItsBurns, the invariants and UrgentReleaseFramesComeFromTheCountdown: a command that completes. -/
theorem test_hyps_completes : (match exec (.siteTransmitComplete) (siteFilled vault 1) with
    | .next t => decide (t.slp.queue = [] ∧ t.slp.tx = some noticeFrame)
    | _ => false) = true := by decide

end Sys2Proof.Tests
end

section
/-! Forwarding of field responses under the station's policy (R27, R28). -/
namespace Sys2Proof.Machine
namespace State

theorem siteFull_iff (s : State) : s.siteFull = true ↔ 48 ≤ s.slp.queue.length := decide_eq_true_iff

/-- R28's test of a payload's own length adds nothing: where the lengths agree, it is the test of the stored length. -/
theorem changedFrom_some_iff (old : StoredPayload) (p : List Byte) :
    changedFrom (some old) p = true ↔ old.length ≠ p.length ∨ 16 < old.length ∨ old.bytes ≠ p := by
  simp only [changedFrom, Bool.or_eq_true, decide_eq_true_iff, ne_comm (b := old.length), ne_comm (b := old.bytes)]
  by_cases hlen : old.length = p.length
  · simp [hlen, Config.lastForwardedBytes]
  · simp [hlen]

theorem changedFrom_iff (last : Option StoredPayload) (p : List Byte) :
    changedFrom last p = true ↔
      last = none ∨ ∃ old, last = some old ∧ (old.length ≠ p.length ∨ 16 < old.length ∨ old.bytes ≠ p) := by
  cases last with
  | none => exact iff_of_true rfl (.inl rfl)
  | some old => simp [changedFrom_some_iff]

section
variable {s : State} {i : Nat} {e : StationEntry} {f : Frame}

theorem forwardByPolicy_all (hp : e.policy = .all) : s.forwardByPolicy i e f = s.offerSite ⟨f, .forwarded⟩ := by
  simp only [forwardByPolicy, hp]

theorem forwardByPolicy_none (hp : e.policy = .none) : s.forwardByPolicy i e f = s := by
  simp only [forwardByPolicy, hp]

theorem forwardByPolicy_unchanged (hp : e.policy = .changes)
    (hc : ¬ changedFrom (s.stationRuntime i).lastForwarded f.payload = true) : s.forwardByPolicy i e f = s := by
  simp only [forwardByPolicy, hp, if_neg hc]

theorem forwardByPolicy_changed_full (hp : e.policy = .changes)
    (hc : changedFrom (s.stationRuntime i).lastForwarded f.payload = true) (hfull : s.siteFull = true) :
    s.forwardByPolicy i e f = s.offerSite ⟨f, .forwarded⟩ := by
  simp only [forwardByPolicy, hp, if_pos hc, if_pos hfull]

theorem forwardByPolicy_changed_room (hp : e.policy = .changes)
    (hc : changedFrom (s.stationRuntime i).lastForwarded f.payload = true) (hroom : ¬ s.siteFull = true) :
    s.forwardByPolicy i e f
      = (s.setStationRuntime i { s.stationRuntime i with lastForwarded := some (storedOf f.payload) }).offerSite
          ⟨f, .forwarded⟩ := by
  simp only [forwardByPolicy, hp, if_pos hc, if_neg hroom]

end

end State
end Sys2Proof.Machine

namespace Sys2Proof.Proofs
open Sys2Proof.Machine Sys2Proof.Machine.State

/-- Settles O17, policy by policy; under CHANGES by whether the response counts as changed and whether the site queue has
room. -/
theorem forwardingPolicies : Obligations.ForwardingPolicies := by
  intro s i e f
  refine ⟨forwardByPolicy_all, forwardByPolicy_none, ?unchanged, ?changed⟩
  case unchanged =>
    intro hp old hold hlen hshort hbytes
    have hsame : ¬ changedFrom (s.stationRuntime i).lastForwarded f.payload = true := by
      rw [hold, changedFrom_some_iff]
      rintro (hne | hlong | hne)
      · exact hne hlen
      · exact absurd hshort (Nat.not_le.mpr hlong)
      · exact hne hbytes
    exact forwardByPolicy_unchanged hp hsame
  case changed =>
    intro hp hdiffers
    have hc := (changedFrom_iff _ _).mpr hdiffers
    refine ⟨fun hroom => ?room, fun hfull => ?full⟩
    case room => exact forwardByPolicy_changed_room hp hc (mt (siteFull_iff s).mp (Nat.not_le.mpr hroom))
    case full => exact forwardByPolicy_changed_full hp hc ((siteFull_iff s).mpr hfull)

end Sys2Proof.Proofs
end

section
/-! What each operation does to an interval timer (R38 to R42), beside the laws of the model's own text. -/
namespace Sys2Proof.Machine
namespace Timer

variable {t : Timer}

theorem expires_iff : t.expires = true ↔ t.running = true ∧ t.gated = false ∧ t.remaining ≤ 1 := by
  simp [expires, and_assoc]

theorem not_expires_of_idle (hidle : t.running = false ∨ t.gated = true) : t.expires = false := by
  rw [Bool.eq_false_iff, Ne, expires_iff]
  rintro ⟨hrun, hopen, -⟩
  rcases hidle with hstopped | hgated
  · exact Bool.false_ne_true (hstopped.symm.trans hrun)
  · exact Bool.false_ne_true (hopen.symm.trans hgated)

theorem not_expires_of_one_lt (hlong : 1 < t.remaining) : t.expires = false := by
  rw [Bool.eq_false_iff, Ne, expires_iff]
  rintro ⟨-, -, hlast⟩
  exact absurd hlong (Nat.not_lt.mpr hlast)

theorem advance_of_idle (hidle : t.running = false ∨ t.gated = true) : t.advance = t :=
  hidle.elim t.advance_stopped t.advance_gated

/-- A continuous timer keeps running through its expiry, so nothing but the count and the expiry-pending mark moves. -/
theorem advance_expires_continuous (hexp : t.expires = true) (hc : t.continuous = true) :
    t.advance = { t with remaining := t.load, pending := true } := by
  obtain ⟨hrun, -, -⟩ := expires_iff.mp hexp
  simp [advance, hexp, hc, hrun]

theorem trigger_stopped (hstopped : t.running = false) :
    t.trigger = { t with remaining := t.load, running := true } := by
  simp [trigger, hstopped]

theorem trigger_retriggers (hrun : t.running = true) (hr : t.retrigger = true) :
    t.trigger = { t with remaining := t.load } := by
  simp [trigger, hrun, hr]

theorem trigger_ignored (hrun : t.running = true) (hr : t.retrigger = false) : t.trigger = t := by
  simp [trigger, hrun, hr]

end Timer
end Sys2Proof.Machine

namespace Sys2Proof.Proofs
open Sys2Proof.Machine

/-- Settles O18, operation by operation; an advance by whether the timer counts, and a counting one by whether this advance
is its last and by its mode. -/
theorem intervalTimerOperations : Obligations.IntervalTimerOperations := by
  intro t
  refine ⟨fun _ _ _ => rfl, Timer.trigger_stopped, Timer.trigger_retriggers, Timer.trigger_ignored, rfl, fun _ => rfl,
    ?idle, ?counting⟩
  case idle =>
    intro hidle
    exact ⟨Timer.advance_of_idle hidle, Timer.not_expires_of_idle hidle⟩
  case counting =>
    intro hrun hopen
    refine ⟨fun hlong => ?counts, fun hlast hsingle => ?stops, fun hlast hcont => ?reloads⟩
    case counts => exact ⟨t.advance_counts hrun hopen hlong, Timer.not_expires_of_one_lt hlong⟩
    case stops =>
      have hexp := Timer.expires_iff.mpr ⟨hrun, hopen, hlast⟩
      exact ⟨t.advance_expires hexp hsingle, hexp⟩
    case reloads =>
      have hexp := Timer.expires_iff.mpr ⟨hrun, hopen, hlast⟩
      exact ⟨Timer.advance_expires_continuous hexp hcont, hexp⟩

end Sys2Proof.Proofs
end

section
/-! Probe samples (R48, R49). -/
namespace Sys2Proof.Machine

theorem clampInt_eq_min_max {lo hi : Int} (h : lo ≤ hi) (i : Int) : clampInt lo hi i = min hi (max lo i) := by
  unfold clampInt
  split
  · omega
  · split <;> omega

/-- A SAMPLE payload of the right length whose status byte is 0 and whose values lie in their ranges (R48). -/
abbrev GoodSample (p : List Byte) : Prop :=
  p.length = 5 ∧ nat1 p 4 = 0 ∧ nat2 p 0 ≤ 1000 ∧ -400 ≤ signed2 p 2 ∧ signed2 p 2 ≤ 850

namespace State

theorem sampleFaulty_iff (p : List Byte) : sampleFaulty p = true ↔ ¬ GoodSample p := by
  simp only [sampleFaulty, Bool.or_eq_true, decide_eq_true_eq, GoodSample]
  omega

/-- The sums of R49, each taken inside its range. -/
theorem calibrate_eq (cal : ProbeCal) (p : List Byte) :
    calibrate cal p = .valid (min 1000 (max 0 ((nat2 p 0 : Int) + cal.rh))).toNat
      (min 850 (max (-400) (signed2 p 2 + cal.t))) := by
  simp only [calibrate, clampT]
  rw [clampInt_eq_min_max (by decide), clampInt_eq_min_max (by decide)]

section
variable {s : State} {e : StationEntry} {p : List Byte}

theorem takeSample_good (hgood : GoodSample p) (hwas : s.probeState e.index ≠ .fault) :
    s.takeSample e p = (s.setProbeState e.index (calibrate (s.probeCal e.index) p)).evaluateClimateOf e.zone := by
  have hsound : ¬ sampleFaulty p = true := fun h => (sampleFaulty_iff p).mp h hgood
  simp only [takeSample, if_neg hsound, if_neg hwas]

theorem takeSample_good_of_fault (hgood : GoodSample p) (hwas : s.probeState e.index = .fault) :
    s.takeSample e p = ((s.setProbeState e.index (calibrate (s.probeCal e.index) p)).lower .probeFault
      e.addr).evaluateClimateOf e.zone := by
  have hsound : ¬ sampleFaulty p = true := fun h => (sampleFaulty_iff p).mp h hgood
  simp only [takeSample, if_neg hsound, if_pos hwas]

theorem takeSample_faulty (hbad : ¬ GoodSample p) (hwas : s.probeState e.index ≠ .fault) :
    s.takeSample e p = ((s.setProbeState e.index .fault).raiseCondition .probeFault e.addr).evaluateClimateOf e.zone := by
  simp only [takeSample, if_pos ((sampleFaulty_iff p).mpr hbad), if_neg hwas]

theorem takeSample_faulty_of_fault (hbad : ¬ GoodSample p) (hwas : s.probeState e.index = .fault) :
    s.takeSample e p = s := by
  simp only [takeSample, if_pos ((sampleFaulty_iff p).mpr hbad), if_pos hwas]

end

/-- A SAMPLE that reaches the Climate Supervisor is its own effect. -/
theorem exec_sample {s : State} {entry : Nat} (p : List Byte) (hserves : s.serves entry)
    (hkind : (s.station entry).kind = .probe) :
    exec (.sample entry p) s = .next ((s.takeHanded (.sample entry p)).takeSample (s.station entry) p) :=
  congrArg Host.Outcome.next (take_eq hserves (decide_eq_true hkind) _ _)

end State
end Sys2Proof.Machine

namespace Sys2Proof.Proofs
open Sys2Proof.Machine Sys2Proof.Machine.State

/-- Settles O20, by whether the payload is good and whether the probe was in FAULT; taking the handed event moves neither
the probe's state nor its calibration. -/
theorem sampleSetsTheProbe : Obligations.SampleSetsTheProbe := by
  intro s entry p hserves hkind e s0 good rh t
  have hcal : calibrate (s0.probeCal e.index) p = .valid rh.toNat t := calibrate_eq _ p
  rw [exec_sample p hserves hkind, ← hcal]
  exact ⟨fun hgood hwas => congrArg _ (takeSample_good hgood hwas),
    fun hgood hwas => congrArg _ (takeSample_good_of_fault hgood hwas),
    fun hbad hwas => congrArg _ (takeSample_faulty hbad hwas),
    fun hbad hwas => congrArg _ (takeSample_faulty_of_fault hbad hwas)⟩

end Sys2Proof.Proofs
end

section
/-! The zone reading, its dew point, and the probes it is made from (R55, R56). -/
namespace Sys2Proof.Machine

/-- The largest RH is the maximum of the list: starting the fold at 0 adds nothing, as no RH is below 0. -/
theorem foldl_max_fst {vals : List (Nat × Int)} (h : vals ≠ []) :
    (vals.map Prod.fst).max? = some (vals.foldl (fun m v => max m v.1) 0) := by
  obtain ⟨v, vs, rfl⟩ := List.exists_cons_of_ne_nil h
  rw [List.map_cons, List.max?_cons', List.foldl_map, List.foldl_cons, Nat.zero_max]

theorem foldl_add_snd (vals : List (Nat × Int)) : vals.foldl (fun a v => a + v.2) 0 = (vals.map Prod.snd).sum := by
  rw [List.sum_eq_foldl, List.foldl_map]

/-- The three fields of a reading: the maximum RH, the floored mean T and the dew point of the two (R56). -/
theorem readingOf_of_ne_nil {vals : List (Nat × Int)} (h : vals ≠ []) : ∃ r, readingOf vals = some r
    ∧ (vals.map Prod.fst).max? = some r.rh ∧ r.t = Int.fdiv (vals.map Prod.snd).sum vals.length
    ∧ r.td = dewPoint r.rh r.t :=
  ⟨_, if_neg h, foldl_max_fst h, congrArg (Int.fdiv · vals.length) (foldl_add_snd vals), rfl⟩

theorem readingOf_eq_none_iff {vals : List (Nat × Int)} : readingOf vals = none ↔ vals = [] := by
  simp [readingOf]

/-- Up to an RH of 1000 the model's natural subtraction is the subtraction of R56. -/
theorem dewPoint_eq_fdiv {rh : Nat} (h : rh ≤ 1000) (t : Int) :
    dewPoint rh t = t - Int.fdiv (1000 - (rh : Int)) 5 := by
  rw [dewPoint, Int.fdiv_eq_ediv_of_nonneg _ (by decide)]
  omega

theorem dewPoint_bounds {rh : Nat} {t : Int} (hlow : -400 ≤ t) (hhigh : t ≤ 850) :
    dewPoint rh t ≤ t ∧ -600 ≤ dewPoint rh t ∧ dewPoint rh t ≤ 850 ∧ (996 ≤ rh → dewPoint rh t = t) := by
  unfold dewPoint
  omega

namespace State

theorem probesOf_eq_filter (s : State) (z : Nat) :
    s.probesOf z = (s.stationList.map Prod.snd).filter (fun e => decide (e.kind = .probe ∧ e.zone = some z)) := by
  simp only [probesOf, List.filter_map, Function.comp_def, Bool.decide_and]

end State
end Sys2Proof.Machine

namespace Sys2Proof.Proofs
open Sys2Proof.Machine Sys2Proof.Machine.State

/-- Settles O21: the maximum by `List.max?`, the mean by the two bounds of a floored quotient, the dew point by its
arithmetic, and the values by the state of each probe. -/
theorem zoneReadingAndDewPoint : Obligations.ZoneReadingAndDewPoint := by
  refine ⟨readingOf_eq_none_iff.mpr rfl, ?reading, fun rh t _ => dewPoint_bounds,
    fun s z => ⟨probesOf_eq_filter s z, ?values⟩⟩
  case reading =>
    intro vals hne hrange
    obtain ⟨r, hr, hmax, hmean, hdew⟩ := readingOf_of_ne_nil hne
    obtain ⟨hmem, hle⟩ := List.max?_eq_some_iff.mp hmax
    obtain ⟨v, hv, hrh⟩ := List.mem_map.mp hmem
    have hcount : (0 : Int) < vals.length := Int.natCast_pos.mpr (List.length_pos_iff.mpr hne)
    refine ⟨r, hr, fun w hw => hle _ (List.mem_map_of_mem hw), ⟨v, hv, hrh.symm⟩, ?_, ?_, ?_⟩
    · rw [hmean, Int.mul_comm]
      exact Int.mul_fdiv_self_le hcount
    · rw [hmean]
      exact Int.lt_fdiv_add_one_mul_self _ hcount
    · rw [hdew]
      exact dewPoint_eq_fdiv (hrh ▸ hrange v hv) r.t
  case values =>
    rw [validValues, probesOf_eq_filter]
    congr 1
    funext e
    cases s.probeState e.index <;> rfl

end Sys2Proof.Proofs
end

section
/-! The bands of a reading and the evaluation of a climate record (R58 to R61). -/
namespace Sys2Proof.Machine

/-- The first line of the bands, its limits moved inside by `h` (R59, R61). -/
abbrev CriticalLine (p : Profile) (h rh : Nat) : Prop := (p.critHigh : Int) - h ≤ rh ∨ (rh : Int) ≤ p.critLow + h

/-- The second line of the bands, its limits moved inside by `h` and `th`. -/
abbrev ExcursionLine (p : Profile) (h th rh : Nat) (t : Int) : Prop :=
  (p.high : Int) - h < rh ∨ (rh : Int) < p.low + h ∨ p.tHigh - th < t ∨ t < p.tLow + th

/-- The third line of the bands, its limits moved inside by `h`. -/
abbrev WarningLine (p : Profile) (h rh : Nat) : Prop :=
  (p.high : Int) - p.margin - h < rh ∨ (rh : Int) < p.low + p.margin + h

section
variable {p : Profile} {h th : Nat} (r : Reading)

theorem bandInside_critical (hc : CriticalLine p h r.rh) : bandInside p h th r = .critical := if_pos hc

theorem bandInside_excursion (hc : ¬ CriticalLine p h r.rh) (he : ExcursionLine p h th r.rh r.t) :
    bandInside p h th r = .excursion :=
  (if_neg hc).trans (if_pos he)

theorem bandInside_warning (hc : ¬ CriticalLine p h r.rh) (he : ¬ ExcursionLine p h th r.rh r.t)
    (hw : WarningLine p h r.rh) : bandInside p h th r = .warning :=
  (if_neg hc).trans ((if_neg he).trans (if_pos hw))

theorem bandInside_normal (hc : ¬ CriticalLine p h r.rh) (he : ¬ ExcursionLine p h th r.rh r.t)
    (hw : ¬ WarningLine p h r.rh) : bandInside p h th r = .normal :=
  (if_neg hc).trans ((if_neg he).trans (if_neg hw))

end

/-- What every evaluation with a VALID probe keeps: the reading and the count of VALID probes. -/
abbrev ClimateRec.withReading (c : ClimateRec) (r : Reading) (count : Nat) : ClimateRec :=
  { c with reading := some r, validCount := count }

section
variable {p : Profile} {c : ClimateRec} {vals : List (Nat × Int)}

theorem evaluateRecord_no_probe_left (hc : c.state = .noData) : evaluateRecord p c [] = c := if_pos hc

theorem evaluateRecord_no_probe (hc : c.state ≠ .noData) :
    evaluateRecord p c [] = { c with state := .noData, reading := none, validCount := 0, candidate := 0 } :=
  if_neg hc

variable {r : Reading} (hr : readingOf vals = some r)
include hr

theorem evaluateRecord_first_data (hc : c.state = .noData) :
    evaluateRecord p c vals = { c.withReading r vals.length with state := rawBand p r, candidate := 0 } := by
  simp only [evaluateRecord, hr, if_pos hc]

theorem evaluateRecord_rises (hc : c.state ≠ .noData) (hworse : c.state.severity < (rawBand p r).severity)
    (hlast : c.candidate + 1 = p.persistence) :
    evaluateRecord p c vals = { c.withReading r vals.length with state := rawBand p r, candidate := 0 } := by
  simp only [evaluateRecord, hr, if_neg hc, if_pos hworse, if_pos hlast]

theorem evaluateRecord_counts (hc : c.state ≠ .noData) (hworse : c.state.severity < (rawBand p r).severity)
    (hmore : c.candidate + 1 ≠ p.persistence) :
    evaluateRecord p c vals = { c.withReading r vals.length with candidate := c.candidate + 1 } := by
  simp only [evaluateRecord, hr, if_neg hc, if_pos hworse, if_neg hmore]

theorem evaluateRecord_stays (hc : c.state ≠ .noData) (hsame : rawBand p r = c.state) :
    evaluateRecord p c vals = { c.withReading r vals.length with candidate := 0 } := by
  simp only [evaluateRecord, hr, if_neg hc, hsame, if_neg (Nat.lt_irrefl _)]

theorem evaluateRecord_falls (hc : c.state ≠ .noData) (hbetter : (rawBand p r).severity < c.state.severity)
    (hheld : (heldBand p r).severity < c.state.severity) :
    evaluateRecord p c vals = { c.withReading r vals.length with state := heldBand p r, candidate := 0 } := by
  simp only [evaluateRecord, hr, if_neg hc, if_neg (Nat.lt_asymm hbetter), if_pos hbetter, if_pos hheld]

theorem evaluateRecord_held (hc : c.state ≠ .noData) (hbetter : (rawBand p r).severity < c.state.severity)
    (hheld : c.state.severity ≤ (heldBand p r).severity) :
    evaluateRecord p c vals = { c.withReading r vals.length with candidate := 0 } := by
  simp only [evaluateRecord, hr, if_neg hc, if_neg (Nat.lt_asymm hbetter), if_pos hbetter, if_neg (Nat.not_lt.mpr hheld)]

end

end Sys2Proof.Machine

namespace Sys2Proof.Proofs
open Sys2Proof.Machine

/-- Settles O22: the bands line by line, and the evaluation by whether there is a reading and by how the raw band compares
with the state. -/
theorem evaluationMovesTheClimateState : Obligations.EvaluationMovesTheClimateState := by
  refine ⟨fun p rh t td => ⟨rfl, rfl, fun h th => ?bands⟩, fun p c vals => ⟨?unread, ?lost, fun r hr => ?read⟩⟩
  case bands =>
    let r : Reading := ⟨rh, t, td⟩
    exact ⟨bandInside_critical r, bandInside_excursion r, bandInside_warning r, bandInside_normal r⟩
  case unread =>
    rintro rfl
    exact evaluateRecord_no_probe_left
  case lost =>
    rintro rfl
    exact evaluateRecord_no_probe
  case read =>
    exact ⟨evaluateRecord_first_data hr,
      fun hc hworse => ⟨evaluateRecord_rises hr hc hworse, evaluateRecord_counts hr hc hworse⟩,
      evaluateRecord_stays hr,
      fun hc hbetter => ⟨evaluateRecord_falls hr hc hbetter, evaluateRecord_held hr hc hbetter⟩⟩

end Sys2Proof.Proofs
end

section
/-! ZONE CLEAR EXPOSURE (R67). -/
namespace Sys2Proof.Machine
namespace State

theorem zoneClearExposureRequest_in_range (s : State) (tag : Byte) {z : Nat} (hz : z ≤ 15) :
    s.zoneClearExposureRequest tag z =
      ((s.setClimate z { s.climate z with exposure := 0, exposed := false }).lower .zoneExposed z).reply
        Req.zoneClearExposure tag .done (enc2 (s.climate z).exposure ++ encBool (s.climate z).exposed) :=
  if_neg (Nat.not_lt.mpr hz)

theorem zoneClearExposureRequest_out_of_range (s : State) (tag : Byte) {z : Nat} (hz : 15 < z) :
    s.zoneClearExposureRequest tag z = s.reply Req.zoneClearExposure tag .range [] :=
  if_pos hz

/-- A ZONE CLEAR EXPOSURE that is carried out is its own effect. -/
theorem exec_zoneClearExposure {s : State} (hready : s.ready) (tag : Byte) (z : Nat) :
    exec (.zoneClearExposure tag z) s
      = .next ((s.requested (.zoneClearExposure tag z)).zoneClearExposureRequest tag z) :=
  congrArg Host.Outcome.next (serve_eq hready _ _ _ _)

end State
end Sys2Proof.Machine

namespace Sys2Proof.Proofs
open Sys2Proof.Machine Sys2Proof.Machine.State

/-- Settles O26, by whether the zone is one of 0..15; taking the request moves no climate record. -/
theorem zoneClearExposureClearsTheAccount : Obligations.ZoneClearExposureClearsTheAccount := by
  intro s tag z hready s0 c
  rw [exec_zoneClearExposure hready tag z]
  refine ⟨fun hz => ?inRange, fun hz => congrArg _ (zoneClearExposureRequest_out_of_range s0 tag hz)⟩
  case inRange =>
    obtain ⟨-, -, -, hclimate, -⟩ := requested_accessors s (.zoneClearExposure tag z)
    have hc : s0.climate z = c := congrFun hclimate z
    rw [zoneClearExposureRequest_in_range _ tag hz, hc]
    rfl

end Sys2Proof.Proofs
end

section
/-! A TAKE at a door reader (R102, R103). -/
namespace Sys2Proof.Machine

theorem scanIntent_of_head_zero {p : List Byte} (hhead : p.head? = some 0) : scanIntent p = some .take := by
  obtain ⟨tail, rfl⟩ := List.head?_eq_some_iff.mp hhead
  rfl

theorem MediaRec.held_iff (r : MediaRec) : r.held = true ↔ r.manual = true ∨ r.agent = true := by
  rw [held, Bool.or_eq_true]

/-- R103's climate test, state by state: CRITICAL exceeds both take limits, EXCURSION only the limit WARNING. -/
theorem climateBars_iff (c : ClimateState) (l : TakeLimit) :
    climateBars c l = true ↔ c ∈ [ClimateState.noData, .critical] ∨ (c = .excursion ∧ l = .warning) := by
  cases c <;> cases l <;> decide

namespace State

/-- In a canonical table the slot a record is found at reads as that record. -/
theorem mediaAt_of_mediaById {s : State} {id : Ident} {slot : Nat} {r : MediaRec}
    (hwf : Tab.wf none s.csu.media = true) (hfound : s.mediaById id = some (slot, r)) : s.mediaAt slot = some r := by
  obtain ⟨⟨k, entry⟩, hmem, hentry⟩ := List.exists_of_findSome?_eq_some hfound
  cases entry with
  | none => cases hentry
  | some found =>
    obtain ⟨-, hpair⟩ := Option.ite_none_right_eq_some.mp hentry
    cases hpair
    exact (Tab.read_of_mem none _ 0 hwf _ _ hmem).1

/-! The checks of R103, each after those before it. -/

section
variable {s : State} {zone : Option Nat} {id : Ident}

theorem takeOutcome_supervision (hauto : s.mga.partState = .autonomous) :
    s.takeOutcome zone id = (.supervision, none) := if_pos hauto

section
variable (hsup : s.mga.partState ≠ .autonomous)
include hsup

theorem takeOutcome_unknownMedia (hnone : s.mediaById id = none) : s.takeOutcome zone id = (.unknownMedia, none) := by
  simp only [takeOutcome, if_neg hsup, hnone]

variable {slot : Nat} {r : MediaRec} (hfound : s.mediaById id = some (slot, r))
include hfound

theorem takeOutcome_wrongZone (hother : zone ≠ some r.home) : s.takeOutcome zone id = (.wrongZone, some slot) := by
  simp only [takeOutcome, if_neg hsup, hfound, if_pos hother]

variable (hzone : zone = some r.home)
include hzone

theorem takeOutcome_state (hnot : r.custody ≠ .shelved) : s.takeOutcome zone id = (.state, some slot) := by
  simp [takeOutcome, hsup, hfound, hzone, hnot]

variable (hshelved : r.custody = .shelved)
include hshelved

theorem takeOutcome_hold (hheld : r.held = true) : s.takeOutcome zone id = (.hold, some slot) := by
  simp [takeOutcome, hsup, hfound, hzone, hshelved, hheld]

variable (hfree : ¬ r.held = true)
include hfree

theorem takeOutcome_fire (hfire : (s.fire r.home).state ≠ .quiet ∨ (s.fire r.home).unmonitored = true) :
    s.takeOutcome zone id = (.fire, some slot) := by
  simp [takeOutcome, hsup, hfound, hzone, hshelved, hfree, hfire]

variable (hquiet : ¬ ((s.fire r.home).state ≠ .quiet ∨ (s.fire r.home).unmonitored = true))
include hquiet

theorem takeOutcome_exposed (hexposed : (s.climate r.home).exposed = true) :
    s.takeOutcome zone id = (.exposed, some slot) := by
  simp [takeOutcome, hsup, hfound, hzone, hshelved, hfree, hquiet, hexposed]

variable (hkept : ¬ (s.climate r.home).exposed = true)
include hkept

theorem takeOutcome_climate (hbars : climateBars (s.climate r.home).state (s.zone r.home).takeLimit = true) :
    s.takeOutcome zone id = (.climate, some slot) := by
  simp [takeOutcome, hsup, hfound, hzone, hshelved, hfree, hquiet, hkept, hbars]

theorem takeOutcome_granted (hallows : ¬ climateBars (s.climate r.home).state (s.zone r.home).takeLimit = true) :
    s.takeOutcome zone id = (.granted, some slot) := by
  simp [takeOutcome, hsup, hfound, hzone, hshelved, hfree, hquiet, hkept, hallows]

end

end

/-! What a TAKE does with the outcome of its checks. -/

section
variable {s : State} {e : StationEntry} {p : List Byte}

theorem serveTake_refused {out : Outcome} {found : Option Nat}
    (hchecks : s.takeOutcome e.zone (field p 1 8) = (out, found)) (hrefused : out ≠ .granted) :
    s.serveTake e p = s.scanReport e p out found := by
  simp [serveTake, hchecks, hrefused]

theorem serveTake_granted {slot : Nat} {r : MediaRec}
    (hchecks : s.takeOutcome e.zone (field p 1 8) = (.granted, some slot)) (hslot : s.mediaAt slot = some r) :
    s.serveTake e p = (s.setMedia slot (some (s.checkedOutRecord r))).scanReport e p .granted (some slot) := by
  simp only [serveTake, hchecks, Option.bind_some, hslot]

/-- A TAKE of the form of R102 at a door reader is served. -/
theorem exec_takeScan {entry : Nat} (hserves : s.serves entry) (hkind : (s.station entry).kind = .reader)
    (hrole : (s.station entry).role = .door) (hlen : p.length = 9) (hhead : p.head? = some 0)
    (hchars : (field p 1 8).all identChar = true) :
    exec (.takeScan entry p) s = .next ((s.takeHanded (.takeScan entry p)).serveTake (s.station entry) p) := by
  have hintent := scanIntent_of_head_zero hhead
  have hfits : StationEntry.scansAs entry p (.takeScan entry p) (s.station entry) = true := by
    simp [StationEntry.scansAs, StationEntry.scans, scanCommand, hkind, hrole, hintent]
  have hform : scanFormOk p = true := by simp [scanFormOk, hlen, hintent, hchars]
  exact congrArg Host.Outcome.next ((take_eq hserves hfits _ _).trans (if_pos hform))

end

end State
end Sys2Proof.Machine

namespace Sys2Proof.Proofs
open Sys2Proof.Machine Sys2Proof.Machine.State

/-- Settles O31, check by check: each refusal is the report of its outcome alone, and the record that passes them all is
the one its slot holds. Taking the handed event moves nothing the checks read. -/
theorem takeIsCheckedInOrder : Obligations.TakeIsCheckedInOrder := by
  intro s entry p hserves hwf hkind hrole hlen hhead hchars e u
  have hserved : exec (.takeScan entry p) s = .next (u.serveTake e p) :=
    exec_takeScan hserves hkind hrole hlen hhead hchars
  have refused {out : Machine.Outcome} {found : Option Nat}
      (hchecks : u.takeOutcome e.zone (field p 1 8) = (out, found)) (hout : out ≠ .granted) :
      exec (.takeScan entry p) s = .next (u.scanReport e p out found) :=
    hserved.trans (congrArg _ (serveTake_refused hchecks hout))
  refine ⟨fun hauto => ?supervision, fun hsup hnone => ?unknownMedia, ?found⟩
  case supervision => exact refused (takeOutcome_supervision hauto) nofun
  case unknownMedia => exact refused (takeOutcome_unknownMedia hsup hnone) nofun
  intro slot r hsup hfound held fire exposed damp loan due lent
  refine ⟨fun hother => ?wrongZone, fun hzone => ⟨fun hnot => ?state, fun hshelved hheld => ?hold,
    fun hshelved hfree hfire => ?fire, fun hshelved hfree hquiet hexposed => ?exposed,
    fun hshelved hfree hquiet hkept hdamp => ?climate, fun hshelved hfree hquiet hkept hdry => ?granted⟩⟩
  case wrongZone => exact refused (takeOutcome_wrongZone hsup hfound hother) nofun
  case state => exact refused (takeOutcome_state hsup hfound hzone hnot) nofun
  case hold => exact refused (takeOutcome_hold hsup hfound hzone hshelved (r.held_iff.mpr hheld)) nofun
  all_goals have hnotHeld : ¬ r.held = true := mt r.held_iff.mp hfree
  case fire => exact refused (takeOutcome_fire hsup hfound hzone hshelved hnotHeld hfire) nofun
  case exposed => exact refused (takeOutcome_exposed hsup hfound hzone hshelved hnotHeld hquiet hexposed) nofun
  case climate =>
    have hbars := (climateBars_iff _ _).mpr hdamp
    exact refused (takeOutcome_climate hsup hfound hzone hshelved hnotHeld hquiet hkept hbars) nofun
  case granted =>
    have hallows := mt (climateBars_iff _ _).mp hdry
    have hchecks := takeOutcome_granted (s := u) hsup hfound hzone hshelved hnotHeld hquiet hkept hallows
    exact hserved.trans (congrArg _ (serveTake_granted hchecks (mediaAt_of_mediaById hwf hfound)))

end Sys2Proof.Proofs
end

section
/-! The item operations on a media record (R115). -/
namespace Sys2Proof.Machine
namespace ItemOp

/-- The custody states from which an operation acts (R115). -/
def ActsFrom (op : ItemOp) (c : Custody) : Prop :=
  match op with
  | .outboundConsign _ => c = .shelved
  | .inboundConsign _ => c = .out
  | .outboundPass | .outboundMissing | .outboundRevert => ∃ n, c = .consigned n
  | .inboundPass _ _ | .inboundMissing | .inboundRevert => ∃ n, c = .arriving n

theorem apply_of_not_actsFrom {op : ItemOp} {r : MediaRec} (h : ¬ op.ActsFrom r.custody) : op.apply r = r := by
  unfold apply
  split
  case h_1 hc | h_2 hc => exact absurd hc h
  case h_3 hc | h_4 hc | h_5 hc | h_6 hc | h_7 hc | h_8 hc => exact absurd ⟨_, hc⟩ h
  case h_9 => rfl

section
variable {r : MediaRec} {k : Nat}

theorem outboundConsign_apply (n : Nat) (h : r.custody = .shelved) :
    (outboundConsign n).apply r = { r with custody := .consigned n } := by
  simp only [apply, h]

theorem inboundConsign_apply (n : Nat) (h : r.custody = .out) :
    (inboundConsign n).apply r = { r with custody := .arriving n } := by
  simp only [apply, h]

theorem outboundPass_apply (h : r.custody = .consigned k) : outboundPass.apply r = { r with custody := .out } := by
  simp only [apply, h]

theorem outboundMissing_apply (h : r.custody = .consigned k) :
    outboundMissing.apply r = { r with custody := .shelved, manual := true } := by
  simp only [apply, h]

theorem outboundRevert_apply (h : r.custody = .consigned k) :
    outboundRevert.apply r = { r with custody := .shelved } := by
  simp only [apply, h]

theorem inboundPass_apply (home : Nat) (release : Minute) (h : r.custody = .arriving k) :
    (inboundPass home release).apply r = { r with custody := .acclimatizing release, home := home } := by
  simp only [apply, h]

theorem inboundMissing_apply (h : r.custody = .arriving k) : inboundMissing.apply r = { r with custody := .out } := by
  simp only [apply, h]

theorem inboundRevert_apply (h : r.custody = .arriving k) : inboundRevert.apply r = { r with custody := .out } := by
  simp only [apply, h]

end

end ItemOp

namespace State
variable {s : State} {slot : Nat} {op : ItemOp}

theorem itemOp_free (h : s.mediaAt slot = none) : s.itemOp slot op = s := by
  simp only [itemOp, h]

theorem itemOp_record {r : MediaRec} (h : s.mediaAt slot = some r) :
    s.itemOp slot op = s.setMedia slot (some (op.apply r)) := by
  simp only [itemOp, h]

end State
end Sys2Proof.Machine

namespace Sys2Proof.Proofs
open Sys2Proof.Machine Sys2Proof.Machine.State Sys2Proof.Machine.ItemOp

/-- Settles O34, by the custody state each group of operations acts from. -/
theorem itemOperations : Obligations.ItemOperations := by
  refine ⟨fun s slot op => ⟨itemOp_free, fun r => itemOp_record⟩, fun r n m =>
    ⟨outboundConsign_apply n, fun h => apply_of_not_actsFrom h, inboundConsign_apply n,
      fun h => apply_of_not_actsFrom h,
      fun k hk => ?consigned, fun hnot => ?notConsigned, fun k hk => ?arriving, fun hnot => ?notArriving⟩⟩
  case consigned => exact ⟨outboundPass_apply hk, outboundMissing_apply hk, outboundRevert_apply hk⟩
  case notConsigned =>
    have hnone : ¬ ∃ k, r.custody = .consigned k := fun ⟨k, hk⟩ => hnot k hk
    exact ⟨apply_of_not_actsFrom hnone, apply_of_not_actsFrom hnone, apply_of_not_actsFrom hnone⟩
  case arriving => exact ⟨inboundPass_apply n m hk, inboundMissing_apply hk, inboundRevert_apply hk⟩
  case notArriving =>
    have hnone : ¬ ∃ k, r.custody = .arriving k := fun ⟨k, hk⟩ => hnot k hk
    exact ⟨apply_of_not_actsFrom hnone, apply_of_not_actsFrom hnone, apply_of_not_actsFrom hnone⟩

end Sys2Proof.Proofs
end

section
/-! The invariants: every update of `KeepsRelease` keeps the canonical tables and the bounds of `Sound`, and every update of
`Keeps` keeps RELEASE frames out of the urgent output; the laws of Laws/Steps.lean carry them to every command and step. -/
namespace Sys2Proof.Machine

/-! ### Canonical tables -/

namespace State

theorem afterReset_canonical (stored burns : Figures) (waiting : List Instr) :
    (State.afterReset stored burns waiting).Canonical := by
  constructor <;> rfl

theorem Canonical.siteStart {s : State} (hs : s.Canonical) : s.siteStart.Canonical := by
  unfold State.siteStart
  split
  · exact { hs with }
  · exact hs

theorem Canonical.setAlertRec {s : State} (hs : s.Canonical) (k : Nat) (r : AlertRec) : (s.setAlertRec k r).Canonical :=
  { hs with alerts := Tab.wf_write _ _ _ _ hs.alerts }

theorem Canonical.recomputeHeld {s : State} (hs : s.Canonical) : s.recomputeHeld.Canonical := { hs with }

theorem Canonical.heldAfter {s : State} (hs : s.Canonical) (k : AlertKind) : (s.heldAfter k).Canonical := by
  unfold State.heldAfter
  split
  · exact hs.recomputeHeld
  · exact hs

theorem Canonical.setPulse {s : State} (hs : s.Canonical) (t : Timer) : (s.setPulse t).Canonical := { hs with }

theorem Canonical.pulseLatch {s : State} (hs : s.Canonical) : s.pulseLatch.Canonical := by
  unfold State.pulseLatch
  split
  · exact hs
  · split <;> exact hs.setPulse _

theorem Canonical.pulseMillisecond {s : State} (hs : s.Canonical) : s.pulseMillisecond.Canonical := by
  unfold State.pulseMillisecond
  split <;> exact hs.setPulse _

theorem Canonical.clearAlert {s : State} (hs : s.Canonical) (k : AlertKind) : (s.clearAlert k).Canonical := by
  unfold State.clearAlert
  dsimp only
  split
  · exact hs.setAlertRec _ _
  · exact hs

end State

/-- Every update either leaves each table alone or writes, clears or resets one. -/
theorem canonical_keeps : KeepsRelease State.Canonical where
  enqueue := fun _ _ hs _ => State.Canonical.siteStart { hs with }
  record := fun _ _ _ hs => hs.setAlertRec _ _
  pulse := fun _ hs => hs.pulseLatch
  present := fun _ k _ hs => (hs.setAlertRec _ _).heldAfter k
  urgent := fun _ _ hs _ => { hs with }
  takeUrgent := fun _ _ _ hs _ => { hs with }
  ordinary := fun _ _ hs _ => { hs with }
  dropOrdinary := fun _ _ hs _ => { hs with }
  sendOrdinary := fun _ _ hs => { hs with }
  poll := fun _ _ _ hs _ => { hs with }
  idle := fun _ hs => { hs with }
  manual := fun _ _ hs => { hs with hatchRuntime := Tab.wf_write _ _ _ _ hs.hatchRuntime }
  unlockRef := fun _ _ hs => { hs with hatchRuntime := Tab.wf_write _ _ _ _ hs.hatchRuntime }
  hand := fun _ _ hs => { hs with }
  takeHanded := fun _ _ hs => { hs with }
  runtime := fun _ _ _ hs _ => { hs with runtime := Tab.wf_write _ _ _ _ hs.runtime }
  clearRuntime := fun _ hs => { hs with runtime := rfl }
  zone := fun _ _ _ hs => { hs with zones := Tab.wf_write _ _ _ _ hs.zones }
  probeState := fun _ _ _ hs => { hs with probeState := Tab.wf_write _ _ _ _ hs.probeState }
  clearProbes := fun _ hs => { hs with probeState := rfl }
  climate := fun _ _ _ hs _ => { hs with climate := Tab.wf_write _ _ _ _ hs.climate }
  inputStage := fun _ _ _ hs => { hs with stages := Tab.wf_write _ _ _ _ hs.stages }
  fire := fun _ _ _ hs => { hs with fire := Tab.wf_write _ _ _ _ hs.fire }
  clearFire := fun _ hs => { hs with stages := rfl, fire := rfl }
  media := fun _ _ _ hs => { hs with media := Tab.wf_write _ _ _ _ hs.media }
  scan := fun _ _ hs => { hs with }
  sweep := fun _ _ hs => { hs with }
  hatchRuntime := fun _ _ _ hs => { hs with hatchRuntime := Tab.wf_write _ _ _ _ hs.hatchRuntime }
  clearHatches := fun _ hs => { hs with hatchRuntime := rfl }
  setConsignment := fun _ _ hs => { hs with }
  addConsignment := fun _ _ hs _ => { hs with }
  dropConsignment := fun _ _ hs => { hs with }
  releaseTimer := fun _ _ _ hs => { hs with release := Tab.wf_write _ _ _ _ hs.release }
  stepTimer := fun _ _ _ hs => { hs with step := Tab.wf_write _ _ _ _ hs.step }
  dwellTimer := fun _ _ _ hs => { hs with dwell := Tab.wf_write _ _ _ _ hs.dwell }
  supervision := fun _ _ hs => { hs with }
  retry := fun _ _ hs => { hs with }
  siteRx := fun _ _ hs => { hs with }
  txDone := fun _ hs => State.Canonical.siteStart { hs with }
  fieldRx := fun _ _ _ hs => { hs with }
  window := fun _ _ _ _ hs => { hs with }
  station := fun _ _ _ hs => { hs with stations := Tab.wf_write _ _ _ _ hs.stations }
  actuator := fun _ _ _ hs => { hs with actuators := Tab.wf_write _ _ _ _ hs.actuators }
  probeCal := fun _ _ _ hs => { hs with probes := Tab.wf_write _ _ _ _ hs.probes }
  profile := fun _ _ _ hs => { hs with profiles := Tab.wf_write _ _ _ _ hs.profiles }
  inputKind := fun _ _ _ hs => { hs with inputs := Tab.wf_write _ _ _ _ hs.inputs }
  classEntry := fun _ _ _ hs => { hs with classes := Tab.wf_write _ _ _ _ hs.classes }
  hatch := fun _ _ _ hs => { hs with hatches := Tab.wf_write _ _ _ _ hs.hatches }
  endPulse := fun _ hs => hs.setPulse _
  secondCount := fun _ _ hs _ => { hs with }
  minuteClock := fun _ _ hs => { hs with }
  mga := fun _ _ hs _ => { hs with }
  clearAlert := fun _ k hs => hs.clearAlert k
  masks := fun s _ ks hs =>
    (foldl_keeps (P := State.Canonical) _ (fun _ _ hu => hu.setAlertRec _ _) ks s hs).recomputeHeld
  reset := fun _ _ => State.afterReset_canonical _ _ _
  releaseFrame := fun _ _ _ hs => { hs with }

/-! ### Bounds and agreements -/

theorem State.holdsLine_congr {s t : State} (hmask : ∀ k, (t.alertRec k).masked = (s.alertRec k).masked)
    (hpresent : ∀ k, (t.alertRec k).present = (s.alertRec k).present) : t.holdsLine = s.holdsLine := by
  funext k
  simp only [State.holdsLine, hmask, hpresent]

/-- An urgent frame takes the place of the one for its destination, or the last. -/
theorem map_dst_urgentPut (l : List Frame) (f : Frame) :
    (State.urgentPut l f).map Frame.dst
      = if f.dst ∈ l.map Frame.dst then l.map Frame.dst else l.map Frame.dst ++ [f.dst] := by
  induction l with
  | nil => simp [State.urgentPut]
  | cons g l ih =>
    by_cases hg : g.dst = f.dst
    · simp [State.urgentPut, hg]
    · simp only [State.urgentPut, if_neg hg, List.map_cons, ih, List.mem_cons, Ne.symm hg, false_or]
      split <;> rfl

theorem mem_urgentPut {l : List Frame} {f g : Frame} (h : g ∈ State.urgentPut l f) : g = f ∨ g ∈ l := by
  induction l with
  | nil => exact .inl (by simpa [State.urgentPut] using h)
  | cons a l ih =>
    by_cases ha : a.dst = f.dst
    · simp only [State.urgentPut, if_pos ha, List.mem_cons] at h
      exact h.imp_right (List.mem_cons_of_mem _)
    · simp only [State.urgentPut, if_neg ha, List.mem_cons] at h
      obtain rfl | h := h
      · exact .inr List.mem_cons_self
      · exact (ih h).imp_right (List.mem_cons_of_mem _)

theorem nodup_urgentPut {l : List Frame} (h : (l.map Frame.dst).Nodup) (f : Frame) :
    ((State.urgentPut l f).map Frame.dst).Nodup := by
  rw [map_dst_urgentPut]
  split
  · exact h
  · rename_i hnew
    exact List.nodup_append.mpr ⟨h, List.pairwise_singleton _ _, fun a ha b hb hab => by
      obtain rfl := List.mem_singleton.mp hb
      exact hnew (hab ▸ ha)⟩

/-- The missed count of a station's runtime and its SILENT mark agree (R12). -/
def StationRuntime.Agrees (r : StationRuntime) : Prop := r.missed ≤ 3 ∧ (r.silent = true ↔ r.missed = 3)

theorem StationRuntime.fresh_agrees : StationRuntime.fresh.Agrees := ⟨Nat.zero_le _, by decide⟩

theorem RuntimeStep.agrees {old new : StationRuntime} (hold : old.Agrees) (h : RuntimeStep old new) : new.Agrees := by
  obtain ⟨hle, hiff⟩ := hold
  obtain ⟨hm, hlt, hs⟩ | ⟨hm, hs⟩ | ⟨hm, hs⟩ | ⟨hm, hs⟩ := h
  · refine ⟨by omega, ?_⟩
    rw [hs, hiff]
    constructor <;> omega
  · exact ⟨by omega, by simp [hm, hs]⟩
  · exact ⟨by omega, by simp [hm, hs]⟩
  · exact ⟨by omega, by rw [hs, hm, hiff]⟩

namespace State

theorem afterReset_sound (stored : Figures) {burns : Figures} (hburns : ∀ i, burns.get i ≤ 4) (waiting : List Instr) :
    (State.afterReset stored burns waiting).Sound where
  siteQueue := by simp [State.afterReset]
  transmitter := fun _ => rfl
  ordinaryQueue := by simp [State.afterReset]
  urgentOnce := List.nodup_nil
  missed := fun _ => StationRuntime.fresh_agrees
  secondCount := by simp [State.afterReset]
  exposure := fun _ => Nat.zero_le _
  consignments := by simp [State.afterReset]
  alertCount := fun _ => Nat.zero_le _
  held := rfl
  burns := hburns

theorem siteStart_queue_length_le (s : State) : s.siteStart.slp.queue.length ≤ s.slp.queue.length := by
  unfold State.siteStart
  split
  · rename_i heq; simp [heq]
  · exact Nat.le_refl _

/-- A transmitter that has looked for a frame is idle only with nothing to send (R5). -/
theorem siteStart_transmitter {s : State} (h : s.siteStart.slp.tx = none) : s.siteStart.slp.queue = [] := by
  unfold State.siteStart at h ⊢
  cases htx : s.slp.tx with
  | some f => simp [htx] at h
  | none =>
    cases hq : s.slp.queue with
    | nil => simp [hq]
    | cons f rest => simp [htx, hq] at h

/-- The site queue and transmitter after a frame joined, or was sent, and the transmitter looked for the next. -/
theorem Sound.startWith {s : State} (hs : s.Sound) {slp : Slp} (hroom : slp.queue.length ≤ Config.siteCapacity) :
    (State.siteStart { s with slp := slp }).Sound := by
  have hlen := siteStart_queue_length_le { s with slp := slp }
  have hidle := siteStart_transmitter (s := { s with slp := slp })
  have hrest : ∃ slp', State.siteStart { s with slp := slp } = { s with slp := slp' } := by
    unfold State.siteStart
    split <;> exact ⟨_, rfl⟩
  obtain ⟨slp', hstart⟩ := hrest
  rw [hstart] at hlen hidle ⊢
  exact { hs with siteQueue := Nat.le_trans hlen hroom, transmitter := hidle }

theorem Sound.setPulse {s : State} (hs : s.Sound) (t : Timer) : (s.setPulse t).Sound := { hs with }

theorem Sound.pulseLatch {s : State} (hs : s.Sound) : s.pulseLatch.Sound := by
  unfold State.pulseLatch
  split
  · exact hs
  · split <;> exact hs.setPulse _

theorem Sound.pulseMillisecond {s : State} (hs : s.Sound) : s.pulseMillisecond.Sound := by
  unfold State.pulseMillisecond
  split <;> exact hs.setPulse _

/-- An alert record that keeps its mask and its present sources leaves the held mark right (R163). -/
theorem Sound.setAlertRec {s : State} (hs : s.Sound) {k : Nat} {r : AlertRec} (hcount : r.count ≤ 255)
    (hmask : r.masked = (s.alertRec k).masked) (hpresent : r.present = (s.alertRec k).present) :
    (s.setAlertRec k r).Sound :=
  { hs with
    alertCount := fun j => by
      rw [alertRec_setAlertRec]
      split
      · exact hcount
      · exact hs.alertCount j
    held := by
      rw [holdsLine_congr (s := s)]
      · exact hs.held
      · intro j; rw [alertRec_setAlertRec]; split <;> simp_all
      · intro j; rw [alertRec_setAlertRec]; split <;> simp_all }

theorem Sound.latchRecord {s : State} (hs : s.Sound) (k : AlertKind) (src : Nat) : (s.latchRecord k src).Sound :=
  hs.setAlertRec (by have := hs.alertCount k.code; dsimp only; split <;> omega) rfl rfl

theorem Sound.clearAlert {s : State} (hs : s.Sound) (k : AlertKind) : (s.clearAlert k).Sound := by
  unfold State.clearAlert
  dsimp only
  split
  · exact hs.setAlertRec (Nat.zero_le _) rfl rfl
  · exact hs

/-- The held mark is right once it has been recomputed, whatever it was (R163). -/
theorem Sound.recomputeHeld {s : State} {alb : Alb} (hs : s.Sound)
    (hcount : ∀ k, (Tab.read .fresh alb.alerts k : AlertRec).count ≤ 255) :
    (State.recomputeHeld { s with alb := alb }).Sound :=
  { hs with alertCount := hcount, held := rfl }

theorem alertRec_setPresent_count (s : State) (k : AlertKind) (p : List Nat) (j : Nat) :
    ((s.setPresent k p).alertRec j).count = (s.alertRec j).count := by
  simp only [State.setPresent, alertRec_setAlertRec]
  split <;> simp_all

/-- The present sources of a kind whose output class is not held do not bear on the held mark (R163). -/
theorem holdsLine_setPresent_of_not_held (s : State) {k : AlertKind} (hk : k.isHeld = false) (p : List Nat) :
    (s.setPresent k p).holdsLine = s.holdsLine := by
  funext j
  simp only [State.holdsLine, State.setPresent, alertRec_setAlertRec]
  split
  · rename_i hj; obtain rfl := AlertKind.code_inj hj; simp [hk]
  · rfl

theorem Sound.setPresent {s : State} (hs : s.Sound) (k : AlertKind) (p : List Nat) :
    ((s.setPresent k p).heldAfter k).Sound := by
  have hcount : ∀ j, ((s.setPresent k p).alertRec j).count ≤ 255 := fun j =>
    Nat.le_trans (Nat.le_of_eq (alertRec_setPresent_count s k p j)) (hs.alertCount j)
  unfold State.heldAfter
  split
  · exact hs.recomputeHeld hcount
  · rename_i hk
    exact { hs with
      alertCount := hcount
      held := by
        rw [holdsLine_setPresent_of_not_held s (by simpa using hk)]
        exact hs.held }

/-- Masks change the alert table alone, and no count. -/
theorem foldl_maskAlert (b : Bool) (ks : List AlertKind) (s : State) :
    ∃ alb : Alb, ks.foldl (State.maskAlert b) s = { s with alb := alb }
      ∧ ∀ j, (Tab.read .fresh alb.alerts j : AlertRec).count = (s.alertRec j).count := by
  induction ks generalizing s with
  | nil => exact ⟨s.alb, rfl, fun _ => rfl⟩
  | cons k ks ih =>
    obtain ⟨alb, heq, hcount⟩ := ih (s.maskAlert b k)
    refine ⟨alb, heq, fun j => ?_⟩
    rw [hcount, State.maskAlert, alertRec_setAlertRec]
    split <;> simp_all

theorem Sound.setFspQueues {s : State} (hs : s.Sound) {fsp : Fsp} (ho : fsp.ordinary.length ≤ Config.ordinaryCapacity)
    (hu : (fsp.urgent.map Frame.dst).Nodup) : ({ s with fsp := fsp } : State).Sound :=
  { hs with ordinaryQueue := ho, urgentOnce := hu }

theorem Sound.setClimate {s : State} (hs : s.Sound) (z : Nat) {c : ClimateRec}
    (hc : c.exposure ≤ 65535 ∨ c.exposure = (s.climate z).exposure) : (s.setClimate z c).Sound :=
  { hs with
    exposure := fun y => by
      rw [climate_setClimate]
      split
      · exact hc.elim id (fun h => Nat.le_trans (Nat.le_of_eq h) (hs.exposure z))
      · exact hs.exposure y }

theorem Sound.setStationRuntime {s : State} (hs : s.Sound) {i : Nat} {r : StationRuntime}
    (h : RuntimeStep (s.stationRuntime i) r) : (s.setStationRuntime i r).Sound :=
  { hs with
    missed := fun j => by
      rw [stationRuntime_setStationRuntime]
      split
      · exact h.agrees (hs.missed i)
      · exact hs.missed j }

theorem Sound.setMga {s : State} (hs : s.Sound) {m : Mga} (hm : ∀ i, m.burns.get i = s.mga.burns.get i ∨
    (s.mga.burns.get i < 4 ∧ m.burns.get i = s.mga.burns.get i + 1)) : (s.setMga m).Sound :=
  { hs with
    burns := fun i => by
      obtain h | ⟨hlt, h⟩ := hm i
      · exact Nat.le_trans (Nat.le_of_eq h) (hs.burns i)
      · exact Nat.le_trans (Nat.le_of_eq h) hlt }

end State

theorem length_concat_le {α : Type} {l : List α} {a : α} {n : Nat} (h : l.length < n) : (l ++ [a]).length ≤ n := by
  rw [List.length_append]
  exact h

theorem sound_keeps : KeepsRelease State.Sound where
  enqueue := fun s f hs hroom => hs.startWith (length_concat_le (by simpa [State.siteFull] using hroom))
  record := fun _ _ _ hs => hs.latchRecord _ _
  pulse := fun _ hs => hs.pulseLatch
  present := fun _ _ _ hs => hs.setPresent _ _
  urgent := fun _ f hs _ => hs.setFspQueues hs.ordinaryQueue (nodup_urgentPut hs.urgentOnce f)
  takeUrgent := fun _ f rest hs hu => hs.setFspQueues hs.ordinaryQueue (by
    have h := hs.urgentOnce
    rw [hu, List.map_cons, List.nodup_cons] at h
    exact h.2)
  ordinary := fun _ _ hs hroom => hs.setFspQueues (length_concat_le (by simpa using hroom)) hs.urgentOnce
  dropOrdinary := fun _ _ hs hl => hs.setFspQueues (Nat.le_trans hl.length_le hs.ordinaryQueue) hs.urgentOnce
  sendOrdinary := fun _ _ hs => { hs with }
  poll := fun _ _ _ hs _ => { hs with }
  idle := fun _ hs => { hs with }
  manual := fun _ _ hs => { hs with }
  unlockRef := fun _ _ hs => { hs with }
  hand := fun _ _ hs => { hs with }
  takeHanded := fun _ _ hs => { hs with }
  runtime := fun _ _ _ hs h => hs.setStationRuntime h
  clearRuntime := fun _ hs => { hs with missed := fun _ => StationRuntime.fresh_agrees }
  zone := fun _ _ _ hs => { hs with }
  probeState := fun _ _ _ hs => { hs with }
  clearProbes := fun _ hs => { hs with }
  climate := fun _ z _ hs hc => hs.setClimate z hc
  inputStage := fun _ _ _ hs => { hs with }
  fire := fun _ _ _ hs => { hs with }
  clearFire := fun _ hs => { hs with }
  media := fun _ _ _ hs => { hs with }
  scan := fun _ _ hs => { hs with }
  sweep := fun _ _ hs => { hs with }
  hatchRuntime := fun _ _ _ hs => { hs with }
  clearHatches := fun _ hs => { hs with }
  setConsignment := fun _ _ hs => { hs with consignments := Nat.le_trans (Nat.le_of_eq (List.length_map _)) hs.consignments }
  addConsignment := fun _ _ hs hroom => { hs with consignments := length_concat_le (by simpa using hroom) }
  dropConsignment := fun _ _ hs => { hs with consignments := Nat.le_trans (List.length_filter_le _ _) hs.consignments }
  releaseTimer := fun _ _ _ hs => { hs with }
  stepTimer := fun _ _ _ hs => { hs with }
  dwellTimer := fun _ _ _ hs => { hs with }
  supervision := fun _ _ hs => { hs with }
  retry := fun _ _ hs => { hs with }
  siteRx := fun _ _ hs => { hs with }
  txDone := fun _ hs => hs.startWith hs.siteQueue
  fieldRx := fun _ _ _ hs => { hs with }
  window := fun _ _ _ _ hs => { hs with }
  station := fun _ _ _ hs => { hs with }
  actuator := fun _ _ _ hs => { hs with }
  probeCal := fun _ _ _ hs => { hs with }
  profile := fun _ _ _ hs => { hs with }
  inputKind := fun _ _ _ hs => { hs with }
  classEntry := fun _ _ _ hs => { hs with }
  hatch := fun _ _ _ hs => { hs with }
  endPulse := fun _ hs => hs.setPulse _
  secondCount := fun _ _ hs hn => { hs with secondCount := hn }
  minuteClock := fun _ _ hs => { hs with }
  mga := fun _ _ hs hm => hs.setMga hm
  clearAlert := fun _ k hs => hs.clearAlert k
  masks := fun s b ks hs => by
    obtain ⟨alb, heq, hcount⟩ := State.foldl_maskAlert b ks s
    rw [heq]
    exact hs.recomputeHeld fun j => Nat.le_trans (Nat.le_of_eq (hcount j)) (hs.alertCount j)
  reset := fun _ hs => State.afterReset_sound _ hs.burns _
  releaseFrame := fun _ _ _ hs => hs.setFspQueues hs.ordinaryQueue (nodup_urgentPut hs.urgentOnce _)

/-! ### RELEASE frames -/

/-- No frame joins the urgent output. -/
theorem State.noRelease.mono {s t : State} (hs : s.noRelease) (h : t.urgentOutput ⊆ s.urgentOutput) : t.noRelease :=
  fun f hf => hs f (h hf)

theorem State.noRelease.of_fsp {s t : State} (hs : s.noRelease) (h : t.fsp = s.fsp) : t.noRelease :=
  hs.mono (by simp [State.urgentOutput, h])

/-- The segment takes up something other than an urgent frame. -/
theorem State.noRelease.of_segment {s t : State} (hs : s.noRelease) (hu : t.fsp.urgent = s.fsp.urgent)
    (hseg : ∀ f, t.fsp.segment ≠ .sending (.urgent f)) : t.noRelease :=
  hs.mono (by
    unfold State.urgentOutput
    rw [hu]
    split
    · rename_i f hf; exact absurd hf (hseg f)
    · exact List.subset_append_right _ _)

/-- Another frame than a RELEASE frame joins the urgent queue. -/
theorem State.noRelease.urgentPut {s : State} (hs : s.noRelease) {f : Frame} (hf : f.kind ≠ Kind.release) :
    State.noRelease { s with fsp := { s.fsp with urgent := State.urgentPut s.fsp.urgent f } } := by
  intro g hg
  obtain hg | hg := List.mem_append.mp hg
  · exact hs g (List.mem_append_left _ hg)
  · obtain rfl | hg := mem_urgentPut hg
    · exact hf
    · exact hs g (List.mem_append_right _ hg)

theorem State.noRelease.takeUrgent {s : State} (hs : s.noRelease) {f : Frame} {rest : List Frame}
    (hu : s.fsp.urgent = f :: rest) :
    State.noRelease { s with fsp := { s.fsp with urgent := rest, segment := .sending (.urgent f) } } :=
  hs.mono (by
    unfold State.urgentOutput
    rw [hu]
    exact List.subset_append_right _ _)

theorem State.noRelease.of_reported {s t : State} (hs : s.noRelease) (h : Reported s t) : t.noRelease := hs.of_fsp h.fsp

theorem foldl_maskAlert_fsp (b : Bool) (ks : List AlertKind) (s : State) : (ks.foldl (State.maskAlert b) s).fsp = s.fsp := by
  obtain ⟨_, heq, -⟩ := State.foldl_maskAlert b ks s
  rw [heq]

theorem State.clearAlert_fsp (s : State) (k : AlertKind) : (s.clearAlert k).fsp = s.fsp := by
  unfold State.clearAlert
  dsimp only
  split <;> rfl

/-- Every update but that of `KeepsRelease` keeps RELEASE frames out of the urgent output. -/
theorem noRelease_keeps : Keeps State.noRelease where
  enqueue := fun _ f hs _ => hs.of_reported (siteEnqueue_reported _ f)
  record := fun _ _ _ hs => hs.of_reported (latchRecord_reported _ _ _)
  pulse := fun _ hs => hs.of_reported (pulseLatch_reported _)
  present := fun _ _ _ hs => hs.of_reported (setPresent_reported _ _ _)
  urgent := fun _ _ hs hf => hs.urgentPut hf
  takeUrgent := fun _ _ _ hs hu => hs.takeUrgent hu
  ordinary := fun _ _ hs _ => hs.mono (List.Subset.refl _)
  dropOrdinary := fun _ _ hs _ => hs.mono (List.Subset.refl _)
  sendOrdinary := fun _ _ hs => hs.of_segment rfl (fun _ h => by simp at h)
  poll := fun _ _ _ hs _ => hs.of_segment rfl (fun _ h => by simp at h)
  idle := fun _ hs => hs.of_segment rfl (fun _ h => by simp [State.setSegment] at h)
  manual := fun _ _ hs => hs.of_fsp rfl
  unlockRef := fun _ _ hs => hs.of_fsp rfl
  hand := fun _ _ hs => hs.of_fsp rfl
  takeHanded := fun _ _ hs => hs.of_fsp rfl
  runtime := fun _ _ _ hs _ => hs.of_fsp rfl
  clearRuntime := fun _ hs => hs.of_fsp rfl
  zone := fun _ _ _ hs => hs.of_fsp rfl
  probeState := fun _ _ _ hs => hs.of_fsp rfl
  clearProbes := fun _ hs => hs.of_fsp rfl
  climate := fun _ _ _ hs _ => hs.of_fsp rfl
  inputStage := fun _ _ _ hs => hs.of_fsp rfl
  fire := fun _ _ _ hs => hs.of_fsp rfl
  clearFire := fun _ hs => hs.of_fsp rfl
  media := fun _ _ _ hs => hs.of_fsp rfl
  scan := fun _ _ hs => hs.of_fsp rfl
  sweep := fun _ _ hs => hs.of_fsp rfl
  hatchRuntime := fun _ _ _ hs => hs.of_fsp rfl
  clearHatches := fun _ hs => hs.of_fsp rfl
  setConsignment := fun _ _ hs => hs.of_fsp rfl
  addConsignment := fun _ _ hs _ => hs.of_fsp rfl
  dropConsignment := fun _ _ hs => hs.of_fsp rfl
  releaseTimer := fun _ _ _ hs => hs.of_fsp rfl
  stepTimer := fun _ _ _ hs => hs.of_fsp rfl
  dwellTimer := fun _ _ _ hs => hs.of_fsp rfl
  supervision := fun _ _ hs => hs.of_fsp rfl
  retry := fun _ _ hs => hs.of_fsp rfl
  siteRx := fun _ _ hs => hs.of_fsp rfl
  txDone := fun _ hs => hs.of_fsp (by unfold State.siteStart; split <;> rfl)
  fieldRx := fun _ _ _ hs => hs.mono (List.Subset.refl _)
  window := fun _ _ _ _ hs => hs.of_segment rfl (fun _ h => by simp [State.setSegment] at h)
  station := fun _ _ _ hs => hs.of_fsp rfl
  actuator := fun _ _ _ hs => hs.of_fsp rfl
  probeCal := fun _ _ _ hs => hs.of_fsp rfl
  profile := fun _ _ _ hs => hs.of_fsp rfl
  inputKind := fun _ _ _ hs => hs.of_fsp rfl
  classEntry := fun _ _ _ hs => hs.of_fsp rfl
  hatch := fun _ _ _ hs => hs.of_fsp rfl
  endPulse := fun _ hs => hs.of_fsp rfl
  secondCount := fun _ _ hs _ => hs.of_fsp rfl
  minuteClock := fun _ _ hs => hs.of_fsp rfl
  mga := fun _ _ hs _ => hs.of_fsp rfl
  clearAlert := fun s k hs => hs.of_fsp (s.clearAlert_fsp k)
  masks := fun s b ks hs => hs.of_fsp (foldl_maskAlert_fsp b ks s)
  reset := fun _ _ => fun f hf => by simp [State.urgentOutput, State.resetPart, State.afterReset] at hf

/-- Outside RELEASE_COUNTDOWN the expiry of a release timer is only acknowledged (R90). -/
theorem State.releaseExpired_of_not_countdown {s : State} {z : Nat} (h : s.fireState z ≠ .releaseCountdown) :
    State.releaseExpired z s = s.setReleaseTimer z (s.releaseTimer z).acknowledge := if_neg h

end Sys2Proof.Machine

namespace Sys2Proof.Proofs
open Sys2Proof.Machine

/-- Settles O57: both invariants hold after any reset, and no item of a delivered part has been burnt. -/
theorem resetStateIsSoundAndCanonical : Obligations.ResetStateIsSoundAndCanonical :=
  ⟨State.afterReset_sound _ (fun i => by cases i <;> decide) _, State.afterReset_canonical _ _ _⟩

/-- Settles O58, update by update (`sound_keeps`). -/
theorem everyStepKeepsSoundness : Obligations.EveryStepKeepsSoundness := fun _ _ hs hstep =>
  sound_keeps.step (fun _ _ hs => { hs with }) (fun _ hs => hs.pulseMillisecond) hs hstep

/-- Settles O59, update by update (`canonical_keeps`). -/
theorem everyStepKeepsTablesCanonical : Obligations.EveryStepKeepsTablesCanonical := fun _ _ hs hstep =>
  canonical_keeps.step (fun _ _ hs => { hs with }) (fun _ hs => hs.pulseMillisecond) hs hstep

/-- Settles O60. Every update but one keeps RELEASE frames out (`noRelease_keeps`), and that one is made by the expiry of a
release timer in RELEASE_COUNTDOWN alone. -/
theorem urgentReleaseFramesComeFromTheCountdown : Obligations.UrgentReleaseFramesComeFromTheCountdown := by
  intro c s t hs hexec hnot
  by_cases hc : ∃ z, c = .releaseTimerExpiry z
  case pos =>
    obtain ⟨z, rfl⟩ := hc
    obtain rfl : s.takeEvent (.releaseTimerExpiry z) (State.releaseExpired z) = t := Host.Outcome.next.inj hexec
    by_cases hin : Instr.releaseTimerExpiry z ∈ s.handed
    · have hstate : (s.takeHanded (.releaseTimerExpiry z)).fireState z ≠ .releaseCountdown := hnot z rfl hin
      rw [takeEvent_eq hin, State.releaseExpired_of_not_countdown hstate]
      exact hs.of_fsp rfl
    · rw [State.takeEvent, if_neg (by simpa [State.isHanded] using hin)]
      exact hs
  case neg =>
    exact noRelease_keeps.exec c (fun z _ hz _ => absurd ⟨z, hz⟩ hc) hs hexec

end Sys2Proof.Proofs
end

section
/-! The queue of commands, the ALERT pulse and a reset (R17, R43, R163, R183). -/
namespace Sys2Proof.Machine
namespace State

section
variable {s : State}

theorem step_of_handed (hidle : s.pending = []) {c : Instr} {rest : List Instr} (hc : s.handed = c :: rest) :
    step s = exec c s := by
  unfold step
  rw [hidle, hc]

theorem step_of_idle (hidle : s.pending = []) (hnone : s.handed = []) : step s = .next s.pulseMillisecond := by
  unfold step
  rw [hidle, hnone]

theorem pulseMillisecond_stopped (h : s.tmb.pulse.running = false) : s.pulseMillisecond = s := by
  have hexp : s.tmb.pulse.expires = false := Timer.not_expires_of_idle (.inl h)
  simp only [pulseMillisecond, hexp, Timer.advance_stopped _ h]
  rfl

theorem pulseMillisecond_counts (hrun : s.tmb.pulse.running = true) (hgate : s.tmb.pulse.gated = false)
    (hlong : 1 < s.tmb.pulse.remaining) :
    s.pulseMillisecond = s.setPulse { s.tmb.pulse with remaining := s.tmb.pulse.remaining - 1 } := by
  simp [pulseMillisecond, Timer.not_expires_of_one_lt hlong, Timer.advance_counts _ hrun hgate hlong]

theorem pulseMillisecond_ends (hrun : s.tmb.pulse.running = true) (hgate : s.tmb.pulse.gated = false)
    (hlast : s.tmb.pulse.remaining ≤ 1) : s.pulseMillisecond = s.endPulse :=
  if_pos (Timer.expires_iff.mpr ⟨hrun, hgate, hlast⟩)

theorem pulsePasses_running (hrun : s.tmb.pulse.running = true) (hgate : s.tmb.pulse.gated = false) :
    s.pulsePasses = s.endPulse := by simp [pulsePasses, hrun, hgate]

theorem pulsePasses_stopped (h : s.tmb.pulse.running = false) : s.pulsePasses = s := by simp [pulsePasses, h]

/-- With no pulse running the ALERT line follows the held mark alone (R163). -/
theorem alertLow_of_pulse_stopped (h : s.tmb.pulse.running = false) : s.alertLow = s.alb.held := by simp [alertLow, h]

end

end State
end Sys2Proof.Machine

namespace Sys2Proof.Proofs
open Sys2Proof.Machine Sys2Proof.Machine.State

/-- Settles O1: the front command is the one `step` runs. -/
theorem stepRunsTheFrontCommand : Obligations.StepRunsTheFrontCommand := fun _ _ _ => rfl

/-- Settles O2, by whether an event has been handed and, for the pulse, by its count. -/
theorem idleStepsAndTheAlertPulse : Obligations.IdleStepsAndTheAlertPulse := by
  refine ⟨fun s hidle => ⟨fun c rest hc => step_of_handed hidle hc, fun hnone => ?idle⟩,
    fun s => ⟨fun hrun hgate => ?running, fun hstopped => ?stopped⟩⟩
  case idle =>
    rw [step_of_idle hidle hnone]
    exact ⟨fun h => congrArg _ (pulseMillisecond_stopped h),
      fun hrun hgate hlong => congrArg _ (pulseMillisecond_counts hrun hgate hlong),
      fun hrun hgate hlast => congrArg _ (pulseMillisecond_ends hrun hgate hlast)⟩
  case running =>
    exact ⟨s.endPulse, congrArg _ (pulsePasses_running hrun hgate), rfl, alertLow_of_pulse_stopped rfl⟩
  case stopped =>
    exact ⟨congrArg _ (pulsePasses_stopped hstopped), alertLow_of_pulse_stopped hstopped⟩

/-- Settles O3: a reset is `State.afterReset`, whose tables are empty, so that every entry and record reads as its value
after reset. -/
theorem resetSetsEveryField : Obligations.ResetSetsEveryField := by
  refine ⟨fun s => ⟨State.afterReset s.mga.stored s.mga.burns s.pending, rfl, ?fields⟩, rfl, rfl, ?burns, rfl, rfl, rfl⟩
  case fields => and_intros <;> intros <;> and_intros <;> rfl
  case burns => intro i; cases i <;> rfl

end Sys2Proof.Proofs
end

section
/-! Frames and their check value (R1 to R3). -/
namespace Sys2Proof.Machine

theorem byteOf_eq_extractLsb' {w : Nat} (x : BitVec w) (i : Nat) : byteOf (x.toNat / 2 ^ i) = x.extractLsb' i 8 := by
  apply BitVec.eq_of_toNat_eq
  simp [byteOf, BitVec.extractLsb', Nat.shiftRight_eq_div_pow]

/-- A check value is sent high byte first. -/
theorem enc2_checkWord (c : CheckWord) : enc2 c.toNat = [c.extractLsb' 8 8, c.extractLsb' 0 8] := by
  have hhigh : byteOf (c.toNat / 256) = c.extractLsb' 8 8 := byteOf_eq_extractLsb' c 8
  have hlow := byteOf_eq_extractLsb' c 0
  rw [Nat.pow_zero, Nat.div_one] at hlow
  show [byteOf (c.toNat / 256), byteOf c.toNat] = _
  rw [← hhigh, ← hlow]

theorem checkValue_append (bytes : List Byte) (x : Byte) : checkValue (bytes ++ [x]) = crcByte (checkValue bytes) x := by
  simp [checkValue]

theorem crcBit_eq (r : CheckWord) (b : Bool) :
    crcBit r b = if r.getLsbD 15 = b then r <<< 1 else (r <<< 1) ^^^ 0x6F63 := by
  rw [crcBit, BitVec.msb_eq_getLsbD_last]

namespace Frame

theorem nat1_image_length {f : Frame} (hf : f.fits) : nat1 f.image 3 = f.payload.length := by
  obtain ⟨-, -, -, hlen⟩ := hf
  rw [image_cons]
  exact byteOf_toNat (by omega)

theorem image_isComplete {f : Frame} (hf : f.fits) : IsComplete f.image := by
  have hlen := f.image_length
  unfold IsComplete completeLength
  rw [if_neg (by omega)]
  dsimp only
  rw [nat1_image_length hf, if_pos (by omega), hlen]

/-- A frame is received as it was sent. -/
theorem readFrame_image {f : Frame} (hf : f.fits) : readFrame f.image = some f := by
  have hl := nat1_image_length hf
  obtain ⟨hdst, hsrc, hkind, -⟩ := hf
  have hd : nat1 f.image 0 = f.dst := by rw [image_cons]; exact byteOf_toNat hdst
  have hs : nat1 f.image 1 = f.src := by rw [image_cons]; exact byteOf_toNat hsrc
  have hk : nat1 f.image 2 = f.kind := by rw [image_cons]; exact byteOf_toNat hkind
  unfold readFrame
  dsimp only
  rw [hl, image_take, image_drop, if_pos rfl, body_drop, hd, hs, hk]

end Frame
end Sys2Proof.Machine

namespace Sys2Proof.Proofs
open Sys2Proof.Machine

/-- Settles O4, from the lemmas on the places of a frame's bytes. -/
theorem frameReadsBackFromItsBytes : Obligations.FrameReadsBackFromItsBytes := by
  intro f hf
  refine ⟨f.image_length, Frame.image_isComplete hf, Frame.readFrame_image hf, ?head, ?check⟩
  case head => rw [Frame.image_cons]; rfl
  case check => rw [Frame.image_drop, enc2_checkWord]

/-- Settles O5: one byte more is one more round of `crcBit`, bit 7 first. -/
theorem checkValueFollowsItsGenerator : Obligations.CheckValueFollowsItsGenerator := by
  refine ⟨rfl, fun bytes x => ?_, by decide⟩
  rw [checkValue_append]
  simp only [crcByte, crcBit_eq]

end Sys2Proof.Proofs
end

section
/-! The site link: byte gaps, the tests and the classification of site frames, the command gate, the site queue and its
transmitter (R3 to R6, R29, R30, R32); the ends of transmissions and windows on the field segment (R9, R10). -/
namespace Sys2Proof.Machine
namespace State

/-! ### Byte gaps, transmissions and windows -/

section
variable {s : State}

theorem siteGap_partial (h : s.slp.rx ≠ []) :
    s.siteGap = State.raiseEvent { s with slp := { s.slp with rx := [] } } .frameErrors 0 :=
  if_neg (by simpa using h)

theorem siteGap_none (h : s.slp.rx = []) : s.siteGap = s := if_pos (by simp [h])

theorem fieldGap_response (h : s.fsp.rx ≠ []) (hin : s.fsp.rxInWindow = true) {i a : Nat} {rewritten : Bool}
    (hseg : s.fsp.segment = .awaiting i a rewritten) :
    s.fieldGap = ((State.raiseEvent { s with fsp := { s.fsp with rx := [], rxInWindow := false } } .frameErrors 1
      ).missedResponse i a rewritten).arbitrate := by
  unfold fieldGap
  rw [if_neg (by simpa using h), hin, hseg]
  rfl

theorem fieldGap_outOfTurn (h : s.fsp.rx ≠ [])
    (hout : s.fsp.rxInWindow = false ∨ s.fsp.segment = .idle ∨ ∃ x, s.fsp.segment = .sending x) :
    s.fieldGap = State.raiseEvent { s with fsp := { s.fsp with rx := [], rxInWindow := false } } .frameErrors 1 := by
  unfold fieldGap
  rw [if_neg (by simpa using h)]
  obtain hin | hidle | ⟨x, hsend⟩ := hout
  · rw [hin]; rfl
  · rw [hidle]; cases s.fsp.rxInWindow <;> rfl
  · rw [hsend]; cases s.fsp.rxInWindow <;> rfl

theorem fieldGap_none (h : s.fsp.rx = []) : s.fieldGap = s := if_pos (by simp [h])

theorem transmissionEnd_poll {i : Nat} {f : Frame} (h : s.fsp.segment = .sending (.poll i f)) :
    s.transmissionEnd = s.setSegment (.awaiting i f.dst false) := by simp [transmissionEnd, h]

theorem transmissionEnd_urgent {f : Frame} (h : s.fsp.segment = .sending (.urgent f)) :
    s.transmissionEnd = s.arbitrate := by simp [transmissionEnd, h]

theorem transmissionEnd_ordinary {it : OrdItem} (h : s.fsp.segment = .sending (.ordinary it)) :
    s.transmissionEnd = s.arbitrate := by simp [transmissionEnd, h]

theorem transmissionEnd_notSending (h : s.fsp.segment = .idle ∨ ∃ i a b, s.fsp.segment = .awaiting i a b) :
    s.transmissionEnd = s := by
  obtain h | ⟨i, a, b, h⟩ := h <;> simp [transmissionEnd, h]

theorem windowExpiry_missed {i a : Nat} {rewritten : Bool} (hseg : s.fsp.segment = .awaiting i a rewritten)
    (hnone : s.fsp.rxInWindow = false) : s.windowExpiry = (s.missedResponse i a rewritten).arbitrate := by
  simp [windowExpiry, hseg, hnone]

theorem windowExpiry_nothing (h : s.fsp.rxInWindow = true ∨ s.fsp.segment = .idle ∨ ∃ x, s.fsp.segment = .sending x) :
    s.windowExpiry = s := by
  unfold windowExpiry
  split
  · rename_i i a b hseg
    obtain hin | hidle | ⟨x, hsend⟩ := h
    · exact if_pos hin
    · simp [hseg] at hidle
    · simp [hseg] at hsend
  · rfl
  · rfl

end

/-! ### Site frames -/

section
variable {s : State} {f : Frame} {bytes : List Byte}

theorem classifySite_request (hdst : f.dst = s.mga.live.ownAddress) (hkind : f.kind = Kind.request) :
    s.classifySite f = s.hand (readRequest f.payload) := by rw [classifySite, if_pos hdst, if_pos hkind]

theorem classifySite_otherKind (hdst : f.dst = s.mga.live.ownAddress) (hkind : f.kind ≠ Kind.request) :
    s.classifySite f = s.raiseEvent .frameErrors 0 := by
  rw [classifySite, if_pos hdst, if_neg hkind]
  rfl

/-- A frame for a field station is offered in CONFIG, and in the ACTIVE states where the gate lets it pass. -/
theorem classifySite_passes (hdst : f.dst ≠ s.mga.live.ownAddress) (hpass : s.active = false ∨ s.gateTest f = none) :
    s.classifySite f = s.offerOrdinary ⟨f, .site⟩ := by
  rw [classifySite, if_neg hdst]
  split
  · rename_i hactive
    rw [hpass.resolve_left (by simp [hactive])]
  · rfl

theorem classifySite_blocked (hdst : f.dst ≠ s.mga.live.ownAddress) (hactive : s.active = true) {why : BlockReason}
    (hwhy : s.gateTest f = some why) :
    s.classifySite f = s.offerNotice [5, byteOf f.kind, byteOf f.dst, byteOf why.code, 0] := by
  rw [classifySite, if_neg hdst, if_pos hactive, hwhy]
  rfl

theorem siteFrameDone_failed (h : readFrame bytes = none) : s.siteFrameDone bytes = s.raiseEvent .frameErrors 0 := by
  rw [siteFrameDone, h]
  rfl

theorem siteFrameDone_foreign (h : readFrame bytes = some f) (hsrc : f.src ≠ s.mga.live.siteAddress) :
    s.siteFrameDone bytes = s.raiseEvent .frameErrors 0 := by
  rw [siteFrameDone, h]
  exact if_neg hsrc

theorem siteFrameDone_passed (h : readFrame bytes = some f) (hsrc : f.src = s.mga.live.siteAddress) :
    s.siteFrameDone bytes = s.classifySite f := by
  rw [siteFrameDone, h]
  exact if_pos hsrc

theorem exec_siteFrame_one (hrx : s.slp.rx = []) (h : IsComplete bytes) :
    exec (.siteFrameReceived bytes) s = .next (s.siteFrameDone bytes) :=
  congrArg _ (siteBytes_one s bytes hrx h ((siteFrameDone_rx s bytes).trans hrx))

theorem exec_siteFrame_image (hrx : s.slp.rx = []) (hf : f.fits) (hsrc : f.src = s.mga.live.siteAddress) :
    exec (.siteFrameReceived f.image) s = .next (s.classifySite f) := by
  rw [exec_siteFrame_one hrx (Frame.image_isComplete hf), siteFrameDone_passed (Frame.readFrame_image hf) hsrc]

end

/-! ### The command gate -/

section
variable {s : State} {f : Frame}

theorem activeOn_isSome_iff (h : Nat) :
    (s.activeOn h).isSome = true ↔ ∃ c ∈ s.hoc.consignments, c.hatch = h ∧ c.state ≠ .waiting := by
  simp [activeOn, List.find?_isSome]

theorem gateTest_release (h : f.kind = 0x25) : s.gateTest f = some .releaseReserved := if_pos h

theorem gateTest_broadcast (hdst : f.dst = 255) (h : f.kind = 0x22 ∨ f.kind = 0x23 ∨ f.kind = 0x24) :
    s.gateTest f = some .broadcast := by
  rw [gateTest, if_neg (by simp [Kind.release]; omega), if_pos ⟨hdst, h⟩]

/-- A frame of a kind that no row names passes, wherever it goes. -/
theorem gateTest_otherKind (h : f.kind ∉ [0x22, 0x23, 0x24, 0x25]) : s.gateTest f = none := by
  simp only [List.mem_cons, List.not_mem_nil, or_false, not_or] at h
  obtain ⟨hdrive, hsound, hhatch, hrelease⟩ := h
  unfold gateTest
  cases s.stationByAddr f.dst <;>
    simp [Kind.release, Kind.drive, Kind.sound, Kind.hatch, hdrive, hsound, hhatch, hrelease]

theorem gateTest_unknown (hrelease : f.kind ≠ 0x25) (hdst : f.dst ≠ 255) (h : s.stationByAddr f.dst = none) :
    s.gateTest f = none := by
  simp [gateTest, Kind.release, broadcast, hrelease, hdst, h]

section
variable {e : StationEntry} {z : Nat} (hdst : f.dst ≠ 255) (hstation : s.stationByAddr f.dst = some e)
include hdst hstation

theorem gateTest_humidity (hact : e.kind = .actuator) (hzone : e.zone = some z) (hkind : f.kind = 0x22)
    (hfn : s.actuator e.index = .humidifier ∨ s.actuator e.index = .dehumidifier) :
    s.gateTest f = if (s.fireState z).latched then some .fireState
      else if s.mga.partState = .autonomous then some .autonomous else none := by
  simp [gateTest, Kind.release, Kind.drive, broadcast, hdst, hstation, hact, hzone, hkind, hfn, fireStateOf]

theorem gateTest_damper (hact : e.kind = .actuator) (hzone : e.zone = some z) (hkind : f.kind = 0x22)
    (hfn : s.actuator e.index = .damper) :
    s.gateTest f
      = if s.fireState z = .releaseCountdown ∨ s.fireState z = .released then some .fireState else none := by
  simp [gateTest, Kind.release, Kind.drive, broadcast, hdst, hstation, hact, hzone, hkind, hfn, fireStateOf]

theorem gateTest_sound (hzone : e.zone = some z) (hkind : f.kind = 0x23) :
    s.gateTest f = if s.fireState z ≠ .quiet then some .fireState else none := by
  simp [gateTest, Kind.release, Kind.drive, Kind.sound, broadcast, hdst, hstation, hzone, hkind, fireStateOf]

theorem gateTest_hatch (hkind : f.kind = 0x24) {h : Nat} {he : HatchEntry} (hhatch : s.hatchByUnit f.dst = some (h, he)) :
    s.gateTest f = if (s.fireState he.inner).latched then some .fireState
      else if ∃ c ∈ s.hoc.consignments, c.hatch = h ∧ c.state ≠ .waiting then some .handoverActive else none := by
  simp only [← activeOn_isSome_iff]
  simp [gateTest, Kind.release, Kind.drive, Kind.sound, Kind.hatch, broadcast, hdst, hstation, hkind, hhatch]

theorem gateTest_otherDrive (hkind : f.kind = 0x22) (hfn : e.kind ≠ .actuator ∨ s.actuator e.index = .unassigned
    ∨ s.actuator e.index = .sounder ∨ s.actuator e.index = .suppression) : s.gateTest f = none := by
  obtain hfn | hfn | hfn | hfn := hfn <;>
    simp [gateTest, Kind.release, Kind.drive, Kind.sound, Kind.hatch, broadcast, hdst, hstation, hkind, hfn]

theorem gateTest_soundNoZone (hkind : f.kind = 0x23) (hzone : e.zone = none) : s.gateTest f = none := by
  simp [gateTest, Kind.release, Kind.drive, Kind.sound, Kind.hatch, broadcast, hdst, hstation, hkind, hzone]

end

theorem gateTest_noHatch (hdst : f.dst ≠ 255) (hkind : f.kind = 0x24) (hhatch : s.hatchByUnit f.dst = none) :
    s.gateTest f = none := by
  cases hs : s.stationByAddr f.dst with
  | none => exact gateTest_unknown (by omega) hdst hs
  | some e =>
    simp [gateTest, Kind.release, Kind.drive, Kind.sound, Kind.hatch, broadcast, hdst, hs, hkind, hhatch]

end

/-! ### The site queue and its transmitter -/

section
variable {s : State}

theorem offerSite_room (f : SiteItem) (h : s.slp.queue.length < 48) : s.offerSite f = s.siteEnqueue f :=
  if_neg (mt (siteFull_iff s).mp (Nat.not_le.mpr h))

theorem offerSite_full (f : SiteItem) (h : 48 ≤ s.slp.queue.length) : s.offerSite f = s.raiseCongestion .site :=
  if_pos ((siteFull_iff s).mpr h)

theorem tmb_siteEnqueue (s : State) (f : SiteItem) : (s.siteEnqueue f).tmb = s.tmb := by
  unfold siteEnqueue siteStart
  split <;> rfl

/-- The record of a kind right after its latch, and that of every other kind (R161). -/
theorem alertRec_latchRecord (s : State) (k : AlertKind) (src j : Nat) :
    (s.latchRecord k src).alertRec j
      = if j = k.code then { s.alertRec k.code with
          latched := true
          count := if (s.alertRec k.code).count < 255 then (s.alertRec k.code).count + 1 else (s.alertRec k.code).count
          lastSource := some src } else s.alertRec j :=
  alertRec_setAlertRec _ _ _ _

/-- The notice of a CONGESTION, and its pulse, leave the alert table as the latch made it. -/
theorem alb_raiseCongestion (s : State) (l : Link) : (s.raiseCongestion l).alb = (s.latchRecord .congestion l.source).alb := by
  unfold raiseCongestion
  dsimp only
  split
  · rfl
  · rw [(alb_pulseLatch _).1, offerQuiet]
    split
    · rfl
    · exact alb_siteEnqueue _ _

theorem alertRec_raiseCongestion (s : State) (l : Link) (j : Nat) :
    (s.raiseCongestion l).alertRec j = (s.latchRecord .congestion l.source).alertRec j := by
  simp only [alertRec, alb_raiseCongestion]

/-- With 48 frames waiting the notice of a CONGESTION is dropped too (R6). -/
theorem slp_raiseCongestion_full (l : Link) (h : 48 ≤ s.slp.queue.length) : (s.raiseCongestion l).slp = s.slp := by
  have hfull : (s.latchRecord .congestion l.source).siteFull = true := (siteFull_iff _).mpr h
  unfold raiseCongestion
  dsimp only
  split
  · rfl
  · rw [(alb_pulseLatch _).2, offerQuiet, if_pos hfull]
    rfl

theorem siteTransmitted_next {f : SiteItem} (htx : s.slp.tx = some f) (htag : f.tag ≠ .restartReply) :
    s.siteTransmitted = { s with slp := ⟨s.slp.rx, s.slp.queue.tail, s.slp.queue.head?⟩ } := by
  unfold siteTransmitted siteStart
  cases hq : s.slp.queue <;> simp [htx, htag, hq]

theorem siteTransmitted_idle (htx : s.slp.tx = none) : s.siteTransmitted = s := by rw [siteTransmitted, htx]

end

end State
end Sys2Proof.Machine

namespace Sys2Proof.Proofs
open Sys2Proof.Machine Sys2Proof.Machine.State

/-- Settles O6, link by link. -/
theorem byteGapDiscardsThePartialFrame : Obligations.ByteGapDiscardsThePartialFrame := fun _ =>
  ⟨fun h => congrArg _ (siteGap_partial h), fun h => congrArg _ (siteGap_none h),
    fun h => ⟨fun _ _ _ hin hseg => congrArg _ (fieldGap_response h hin hseg),
      fun hout => congrArg _ (fieldGap_outOfTurn h hout)⟩,
    fun h => congrArg _ (fieldGap_none h)⟩

/-- Settles O7. A frame that is complete is tested and classified in `siteFrameDone`; of more bytes it is the first that is
taken so (`siteBytes_split`). -/
theorem siteFramesAreTestedThenClassified : Obligations.SiteFramesAreTestedThenClassified := by
  refine ⟨fun s bytes hrx hc hbad => ?discarded, fun s f hrx hf hsrc => ?classified, fun s bytes => ?more⟩
  case discarded =>
    rw [exec_siteFrame_one hrx hc]
    obtain hnone | ⟨f, hf, hsrc⟩ := hbad
    · rw [siteFrameDone_failed hnone]
    · rw [siteFrameDone_foreign hf hsrc]
  case classified =>
    rw [exec_siteFrame_image hrx hf hsrc]
    exact ⟨fun hd hk => congrArg _ (classifySite_request hd hk), fun hd hk => congrArg _ (classifySite_otherKind hd hk),
      fun hd hc => congrArg _ (classifySite_passes hd (.inl hc)),
      fun hd _ hg => congrArg _ (classifySite_passes hd (.inr hg)),
      fun why hd ha hg => congrArg _ (classifySite_blocked hd ha hg)⟩
  case more =>
    intro held
    refine ⟨fun hshort => congrArg _ (siteBytes_held s bytes (completeLength_none hshort)),
      fun frame rest hheld hframe => ?_⟩
    intro u goesOn
    have goes : ∀ v, u.siteFrameDone frame = v → goesOn v := fun v hv =>
      congrArg Host.Outcome.next ((siteBytes_split s bytes frame rest hheld hframe).trans (congrArg (·.siteBytes []) hv))
    refine ⟨fun hnone => goes _ (siteFrameDone_failed hnone), fun f hf =>
      ⟨fun hsrc => goes _ (siteFrameDone_foreign hf hsrc), fun hsrc => ?_⟩⟩
    have hdone : u.siteFrameDone frame = u.classifySite f := siteFrameDone_passed hf hsrc
    exact ⟨fun hd hk => goes _ (hdone.trans (classifySite_request hd hk)),
      fun hd hk => goes _ (hdone.trans (classifySite_otherKind hd hk)),
      fun hd hp => goes _ (hdone.trans (classifySite_passes hd hp)),
      fun why hd ha hg => goes _ (hdone.trans (classifySite_blocked (s := u) hd ha hg))⟩

/-- Settles O8, row by row. -/
theorem commandGateRows : Obligations.CommandGateRows := by
  intro s f
  refine ⟨gateTest_release, gateTest_broadcast, fun _ => gateTest_otherKind, fun hrelease hdst =>
    ⟨gateTest_unknown hrelease hdst, fun e z hs => gateTest_humidity hdst hs, fun e z hs => gateTest_damper hdst hs,
      fun e z hs => gateTest_sound hdst hs, fun e h he hs hk hh => gateTest_hatch hdst hs hk hh,
      fun hdrive hsound hhatch => gateTest_otherKind (by simp [hdrive, hsound, hhatch, hrelease]),
      fun e hs => gateTest_otherDrive hdst hs, fun e hs => gateTest_soundNoZone hdst hs, gateTest_noHatch hdst⟩⟩

/-- Settles O9, by whether the site queue has room and whether the transmitter sends. -/
theorem siteQueueAndTransmitter : Obligations.SiteQueueAndTransmitter := by
  refine ⟨fun s f => ⟨offerSite_reported s f, fun hroom => ?room, fun hfull => ?full⟩,
    fun s => ⟨fun f htx htag => congrArg _ (siteTransmitted_next htx htag), fun htx => congrArg _ (siteTransmitted_idle htx)⟩⟩
  case room =>
    rw [offerSite_room f hroom, tmb_siteEnqueue]
    exact ⟨siteOutput_siteEnqueue s f, alb_siteEnqueue s f, rfl⟩
  case full =>
    rw [offerSite_full f hfull, alertRec_raiseCongestion, alertRec_latchRecord, if_pos rfl]
    exact ⟨slp_raiseCongestion_full _ hfull, rfl⟩

/-- Settles O10, by the state of the segment. -/
theorem transmissionsAndWindowsEnd : Obligations.TransmissionsAndWindowsEnd :=
  ⟨fun _ => ⟨fun _ _ h => congrArg _ (transmissionEnd_poll h), fun _ h => congrArg _ (transmissionEnd_urgent h),
      fun _ h => congrArg _ (transmissionEnd_ordinary h), fun h => congrArg _ (transmissionEnd_notSending h)⟩,
    fun _ => ⟨fun _ _ _ hseg hin => congrArg _ (windowExpiry_missed hseg hin),
      fun h => congrArg _ (windowExpiry_nothing h)⟩⟩

end Sys2Proof.Proofs
end

section
/-! The poll list: the stations a canonical station table lists, and the entry polled next (R8, R18). -/
namespace Sys2Proof.Machine

/-- The indices of a canonical table rise. -/
theorem Tab.pairwise_of_wfFrom {α : Type} [DecidableEq α] {d : α} {t : Tab α} :
    ∀ {lo : Nat}, Tab.wfFrom d lo t = true → t.Pairwise (fun p q => p.1 < q.1) := by
  induction t with
  | nil => exact fun _ => List.Pairwise.nil
  | cons p t ih =>
    intro lo h
    simp only [Tab.wfFrom, Bool.and_eq_true] at h
    exact List.pairwise_cons.mpr ⟨fun q hq => (Tab.read_of_mem d t _ h.2 q.1 q.2 hq).2, ih h.2⟩

/-- Of a list whose indices rise, what is found has the least index of those that could be. -/
theorem find?_index_le {α : Type} {l : List (Nat × α)} (hl : l.Pairwise (fun p q => p.1 < q.1))
    {q : Nat × α → Bool} {a : Nat × α} (ha : l.find? q = some a) {b : Nat × α} (hb : b ∈ l) (hqb : q b = true) :
    a.1 ≤ b.1 := by
  obtain ⟨-, pre, post, rfl, hpre⟩ := List.find?_eq_some_iff_append.mp ha
  rw [List.pairwise_append, List.pairwise_cons] at hl
  obtain ⟨-, ⟨hpost, -⟩, -⟩ := hl
  obtain hb | hb := List.mem_append.mp hb
  · simpa [hqb] using hpre b hb
  · obtain rfl | hb := List.mem_cons.mp hb
    · exact Nat.le_refl _
    · exact Nat.le_of_lt (hpost b hb)

theorem head?_index_le {α : Type} {l : List (Nat × α)} (hl : l.Pairwise (fun p q => p.1 < q.1)) {a : Nat × α}
    (ha : l.head? = some a) {b : Nat × α} (hb : b ∈ l) : a.1 ≤ b.1 := by
  cases l with
  | nil => cases hb
  | cons c l =>
    obtain rfl : c = a := Option.some.inj ha
    obtain rfl | hb := List.mem_cons.mp hb
    · exact Nat.le_refl _
    · exact Nat.le_of_lt ((List.pairwise_cons.mp hl).1 b hb)

namespace State

section
variable {s : State} (hwf : Tab.wf .zero s.cgt.stations = true)
include hwf

/-- The stations a canonical table lists are its entries that are not empty. -/
theorem mem_stationList_iff {i : Nat} {e : StationEntry} : (i, e) ∈ s.stationList ↔ s.station i = e ∧ e.addr ≠ 0 := by
  rw [stationList, List.mem_filter]
  constructor
  · rintro ⟨hmem, haddr⟩
    exact ⟨(Tab.read_of_mem _ _ 0 hwf i e hmem).1, by simpa using haddr⟩
  · rintro ⟨rfl, haddr⟩
    refine ⟨(Tab.default_or_mem StationEntry.zero s.cgt.stations i).resolve_left fun hzero => haddr ?_, by simpa using haddr⟩
    exact congrArg StationEntry.addr hzero

theorem mem_stationList_of_addr {i : Nat} (h : (s.station i).addr ≠ 0) : (i, s.station i) ∈ s.stationList :=
  (mem_stationList_iff hwf).mpr ⟨rfl, h⟩

theorem stationList_pairwise : s.stationList.Pairwise (fun p q => p.1 < q.1) := (Tab.pairwise_of_wfFrom hwf).filter _

theorem stationList_eq_nil_iff : s.stationList = [] ↔ ∀ i, (s.station i).addr = 0 := by
  constructor
  · intro hnil i
    refine Decidable.byContradiction fun h => ?_
    have hmem := mem_stationList_of_addr hwf h
    simp [hnil] at hmem
  · intro h
    refine List.eq_nil_iff_forall_not_mem.mpr fun ⟨i, e⟩ hmem => ?_
    obtain ⟨rfl, haddr⟩ := (mem_stationList_iff hwf).mp hmem
    exact haddr (h i)

end

section
variable {s : State}

theorem nextPoll_first (h : s.fsp.pollPos = none) : s.nextPoll = s.stationList.head? := by rw [nextPoll, h]

theorem nextPoll_after {p : Nat} (h : s.fsp.pollPos = some p) {q : Nat × StationEntry}
    (hq : s.stationList.find? (fun q => p < q.1) = some q) : s.nextPoll = some q := by simp only [nextPoll, h, hq]

theorem nextPoll_wraps {p : Nat} (h : s.fsp.pollPos = some p) (hq : s.stationList.find? (fun q => p < q.1) = none) :
    s.nextPoll = s.stationList.head? := by simp only [nextPoll, h, hq]

/-- The entry polled next is found beyond the poll position, or it is the first of the poll list. -/
theorem nextPoll_cases (s : State) : s.nextPoll = s.stationList.head?
    ∨ ∃ p q, s.fsp.pollPos = some p ∧ s.stationList.find? (fun q => p < q.1) = some q ∧ s.nextPoll = some q := by
  cases hpos : s.fsp.pollPos with
  | none => exact .inl (nextPoll_first hpos)
  | some p =>
    cases hfind : s.stationList.find? (fun q => p < q.1) with
    | none => exact .inl (nextPoll_wraps hpos hfind)
    | some q => exact .inr ⟨p, q, rfl, hfind, nextPoll_after hpos hfind⟩

theorem mem_of_nextPoll {q : Nat × StationEntry} (h : s.nextPoll = some q) : q ∈ s.stationList := by
  obtain hhead | ⟨p, q', -, hfind, hnext⟩ := s.nextPoll_cases
  · exact List.mem_of_head? (hhead ▸ h)
  · obtain rfl := Option.some.inj (hnext.symm.trans h)
    exact List.mem_of_find?_eq_some hfind

theorem nextPoll_eq_none_iff : s.nextPoll = none ↔ s.stationList = [] := by
  constructor
  · intro h
    obtain hhead | ⟨p, q, -, -, hnext⟩ := s.nextPoll_cases
    · exact List.head?_eq_none_iff.mp (hhead ▸ h)
    · simp [hnext] at h
  · intro h
    cases hpos : s.fsp.pollPos <;> simp [nextPoll, hpos, h]

end
end State
end Sys2Proof.Machine
end

section
/-! The arbiter, the field queues and the tests made when a frame is taken for sending (R13 to R16, R31, R33, R93, R138,
R153). -/
namespace Sys2Proof.Machine
namespace State

/-! ### The arbiter's choice -/

section
variable {s : State}

theorem arbitrate_urgent {f : Frame} {rest : List Frame} (h : s.fsp.urgent = f :: rest) :
    s.arbitrate = { s with fsp := { s.fsp with urgent := rest, segment := .sending (.urgent f) } } := by
  simp only [arbitrate, h]

theorem arbitrate_ordinary (hu : s.fsp.urgent = []) (ho : s.fsp.ordinary ≠ [])
    (hturn : s.fsp.lastNonUrgent = .poll ∨ s.stationList = []) : s.arbitrate = takeOrdinary s.fsp.ordinary s := by
  simp only [arbitrate, hu]
  exact if_pos ⟨ho, hturn⟩

theorem arbitrate_poll (hu : s.fsp.urgent = [])
    (hnot : s.fsp.ordinary = [] ∨ (s.fsp.lastNonUrgent = .ordinary ∧ s.stationList ≠ [])) :
    s.arbitrate = s.choosePoll := by
  simp only [arbitrate, hu]
  refine if_neg ?_
  rintro ⟨ho, hturn⟩
  obtain ⟨hlast, hlist⟩ := hnot.resolve_left ho
  obtain h | h := hturn
  · simp [h] at hlast
  · exact hlist h

theorem choosePoll_some {i : Nat} {e : StationEntry} (h : s.nextPoll = some (i, e)) :
    s.choosePoll = { s with fsp := { s.fsp with
      segment := .sending (.poll i ⟨e.addr, s.mga.live.ownAddress, 0x01, []⟩), pollPos := some i
      lastNonUrgent := .poll } } := by
  simp only [choosePoll, h]
  rfl

theorem choosePoll_none (h : s.nextPoll = none) : s.choosePoll = s.setSegment .idle := by simp only [choosePoll, h]

/-- The test of an ordinary frame leaves the poll list. -/
theorem sendTest_stationList (s : State) (it : OrdItem) : (s.sendTest it).2.stationList = s.stationList := by
  have hsent : Sent s (s.sendTest it).2 := (sent_keeps s).sendTest it (Sent.rfl' s)
  simp only [stationList, hsent.cgt]

/-- With the ordinary queue as it stands taking a frame from it is the arbiter's choice. -/
theorem takeOrdinary_eq_arbitrate (hu : s.fsp.urgent = [])
    (hturn : s.fsp.lastNonUrgent = .poll ∨ s.stationList = []) : takeOrdinary s.fsp.ordinary s = s.arbitrate := by
  by_cases ho : s.fsp.ordinary = []
  · rw [arbitrate_poll hu (.inl ho), ho, takeOrdinary, ← ho]
  · exact (arbitrate_ordinary hu ho hturn).symm

/-- The oldest ordinary frame is tested; a dropped one leads to a choice made anew without it (R15). -/
theorem arbitrate_takes (hu : s.fsp.urgent = []) {it : OrdItem} {rest : List OrdItem} (ho : s.fsp.ordinary = it :: rest)
    (hturn : s.fsp.lastNonUrgent = .poll ∨ s.stationList = []) {ok : Bool} {s2 : State}
    (htest : State.sendTest { s with fsp := { s.fsp with ordinary := rest } } it = (ok, s2)) :
    s.arbitrate =
      if ok then { s2 with fsp := { s2.fsp with segment := .sending (.ordinary it), lastNonUrgent := .ordinary } }
      else s2.arbitrate := by
  have hfsp := sendTest_fsp { s with fsp := { s.fsp with ordinary := rest } } it
  have hlist := sendTest_stationList { s with fsp := { s.fsp with ordinary := rest } } it
  rw [htest] at hfsp hlist
  rw [arbitrate_ordinary hu (by simp [ho]) hturn, ho, takeOrdinary]
  simp only [htest]
  cases ok with
  | true => rfl
  | false =>
    have hrest : s2.fsp.ordinary = rest := by rw [hfsp]
    have hu2 : s2.fsp.urgent = [] := by rw [hfsp]; exact hu
    have hturn2 : s2.fsp.lastNonUrgent = .poll ∨ s2.stationList = [] := by rw [hfsp, hlist]; exact hturn
    have hagain := takeOrdinary_eq_arbitrate hu2 hturn2
    rw [hrest] at hagain
    exact hagain

end

/-! ### Joining the field queues -/

theorem urgentPut_tail {l : List Frame} {f : Frame} (h : l.all (fun g => g.dst != f.dst) = true) :
    urgentPut l f = l ++ [f] := by
  induction l with
  | nil => rfl
  | cons g l ih =>
    simp only [List.all_cons, Bool.and_eq_true, bne_iff_ne] at h
    rw [urgentPut, if_neg h.1, ih h.2, List.cons_append]

theorem urgentPut_replaces {front back : List Frame} {g f : Frame} (hg : g.dst = f.dst)
    (hfront : front.all (fun x => x.dst != f.dst) = true) :
    urgentPut (front ++ g :: back) f = front ++ f :: back := by
  induction front with
  | nil => exact if_pos hg
  | cons x front ih =>
    simp only [List.all_cons, Bool.and_eq_true, bne_iff_ne] at hfront
    rw [List.cons_append, urgentPut, if_neg hfront.1, ih hfront.2, List.cons_append]

section
variable {s : State}

theorem offerOrdinary_room (it : OrdItem) (h : s.fsp.ordinary.length < 32) :
    s.offerOrdinary it = State.arbitrateIfIdle { s with fsp := { s.fsp with ordinary := s.fsp.ordinary ++ [it] } } :=
  if_neg (Nat.not_le.mpr h)

theorem offerOrdinary_full (it : OrdItem) (h : 32 ≤ s.fsp.ordinary.length) :
    s.offerOrdinary it = s.raiseCongestion .field := if_pos h

theorem raiseCongestion_reported (s : State) (l : Link) : Reported s (s.raiseCongestion l) :=
  (reported_keeps s).raiseCongestion l (Reported.rfl' s)

theorem arbitrateIfIdle_idle (h : s.fsp.segment = .idle) : s.arbitrateIfIdle = s.arbitrate := if_pos h

theorem arbitrateIfIdle_busy (h : s.fsp.segment ≠ .idle) : s.arbitrateIfIdle = s := if_neg h

end

/-! ### The tests by origin -/

section
variable {s : State} {f : Frame}

theorem fireStateOf_some (s : State) (z : Nat) : s.fireStateOf (some z) = s.fireState z := rfl

theorem fireStateOf_none (s : State) : s.fireStateOf none = .quiet := rfl

theorem isUnlock_iff : isUnlock f = true ↔ f.kind = 0x24 ∧ f.payload.head? = some 1 := by
  simp only [isUnlock, Bool.and_eq_true, decide_eq_true_eq]
  rfl

theorem isUnlock_eq_false_iff : isUnlock f = false ↔ f.kind ≠ 0x24 ∨ f.payload.head? ≠ some 1 := by
  rw [← Bool.not_eq_true, isUnlock_iff, Classical.not_and_iff_not_or_not]

theorem sendTest_site_config (h : s.active = false) : s.sendTest ⟨f, .site⟩ = (true, s) := by
  simp [sendTest, sendTestSite, h]

theorem sendTest_site_blocked (h : s.active = true) {why : BlockReason} (hwhy : s.gateTest f = some why) :
    s.sendTest ⟨f, .site⟩ = (false, s.offerNotice [5, byteOf f.kind, byteOf f.dst, byteOf why.code, 1]) := by
  simp only [sendTest, sendTestSite, h, hwhy, if_true]
  rfl

theorem sendTest_site_passes (h : s.active = true) (hpass : s.gateTest f = none) :
    s.sendTest ⟨f, .site⟩ = (true, s.setManual f) := by simp only [sendTest, sendTestSite, h, hpass, if_true]

theorem setManual_unlock (hf : isUnlock f = true) {h : Nat} {he : HatchEntry}
    (hhatch : s.hatchByUnit f.dst = some (h, he)) :
    s.setManual f = s.setHatchRuntime h { s.hatchRuntime h with manual := true, moved := false } := by
  simp only [setManual, hf, if_true, hhatch]

theorem setManual_other (h : isUnlock f = false ∨ s.hatchByUnit f.dst = none) : s.setManual f = s := by
  unfold setManual
  split
  · rename_i hf
    rw [h.resolve_left (by simp [hf])]
  · rfl

theorem sendTest_chime {e : StationEntry} {z : Nat} (hstation : s.stationByAddr f.dst = some e) (hzone : e.zone = some z) :
    s.sendTest ⟨f, .frs⟩ = (decide (s.fireState z = .quiet), s) := by
  simp [sendTest, sendTestChime, hstation, hzone, fireStateOf_some]

theorem sendTest_chime_noZone
    (h : s.stationByAddr f.dst = none ∨ ∃ e, s.stationByAddr f.dst = some e ∧ e.zone = none) :
    s.sendTest ⟨f, .frs⟩ = (true, s) := by
  obtain h | ⟨e, h, hzone⟩ := h
  · simp [sendTest, sendTestChime, h]
  · simp [sendTest, sendTestChime, h, hzone, fireStateOf_none]

theorem sendTest_unlock (hf : isUnlock f = true) {h : Nat} {he : HatchEntry}
    (hhatch : s.hatchByUnit f.dst = some (h, he)) :
    s.sendTest ⟨f, .hoc⟩
      = ((match (s.hatchRuntime h).unlockRef with
          | some n => decide ((s.consignment n).map Consignment.state = some .unlocking)
          | none => false),
         s.setHatchRuntime h { s.hatchRuntime h with unlockRef := none }) := by
  change s.sendTestUnlock f = _
  rw [sendTestUnlock, if_pos hf, hhatch] <;> rfl

theorem sendTest_unlock_noHatch (hf : isUnlock f = true) (hhatch : s.hatchByUnit f.dst = none) :
    s.sendTest ⟨f, .hoc⟩ = (false, s) := by simp only [sendTest, sendTestUnlock, hf, if_true, hhatch]

theorem sendTest_hoc_other (hf : isUnlock f = false) : s.sendTest ⟨f, .hoc⟩ = (true, s) := by
  simp [sendTest, sendTestUnlock, hf]

theorem sendTest_cls_other (h : f.kind ≠ 0x22) : s.sendTest ⟨f, .cls⟩ = (true, s) := by
  simp [sendTest, Kind.drive, h]

theorem sendTest_drive (h : f.kind = 0x22) : s.sendTest ⟨f, .cls⟩ = (s.sendTestDrive f, s) := by
  simp [sendTest, Kind.drive, h]

/-- A DRIVE goes to no climate actuator. -/
theorem sendTestDrive_gone (h : s.stationByAddr f.dst = none ∨ ∃ e, s.stationByAddr f.dst = some e ∧ (e.zone = none
    ∨ e.kind ≠ .actuator ∨ (s.actuator e.index ≠ .humidifier ∧ s.actuator e.index ≠ .dehumidifier))) :
    s.sendTestDrive f = false := by
  obtain h | ⟨e, h, hgone⟩ := h
  · simp [sendTestDrive, h]
  · cases hzone : e.zone with
    | none => simp [sendTestDrive, h, hzone]
    | some z =>
      obtain hkind | ⟨hhum, hdeh⟩ := hgone.resolve_left (by simp [hzone])
      · simp only [sendTestDrive, h, hzone, decide_eq_false hkind, Bool.false_and]
        cases s.actuator e.index <;> exact Bool.and_false _
      · simp only [sendTestDrive, h, hzone]
        exact Bool.and_false _

section
variable {e : StationEntry} {z : Nat} (hstation : s.stationByAddr f.dst = some e) (hact : e.kind = .actuator)
  (hzone : e.zone = some z)
include hstation hzone

theorem sendTestDrive_latched (h : (s.fireState z).latched = true) : s.sendTestDrive f = false := by
  simp [sendTestDrive, hstation, hzone, h]

include hact

theorem sendTestDrive_humidifier (h : (s.fireState z).latched = false) (hfn : s.actuator e.index = .humidifier) :
    s.sendTestDrive f = decide (decide (f.payload.head? = some 1) = (s.climate z).humidifier) := by
  simp only [sendTestDrive, hstation, hzone, hact, h, hfn, decide_true, Bool.true_and, Bool.not_false]
  exact Bool.beq_eq_decide_eq _ _

theorem sendTestDrive_dehumidifier (h : (s.fireState z).latched = false) (hfn : s.actuator e.index = .dehumidifier) :
    s.sendTestDrive f = decide (decide (f.payload.head? = some 1) = (s.climate z).dehumidifier) := by
  simp only [sendTestDrive, hstation, hzone, hact, h, hfn, decide_true, Bool.true_and, Bool.not_false]
  exact Bool.beq_eq_decide_eq _ _

end
end

end State
end Sys2Proof.Machine

namespace Sys2Proof.Proofs
open Sys2Proof.Machine Sys2Proof.Machine.State

/-- Settles O11: the cases of R15 in order, and the place of the entry polled next in the rising poll list. -/
theorem arbiterChoosesByItsCases : Obligations.ArbiterChoosesByItsCases := by
  refine ⟨fun s => ⟨fun _ _ => arbitrate_urgent, fun hu => ⟨fun it rest ho hturn ok s2 => arbitrate_takes hu ho hturn,
    fun hnot => ?poll⟩⟩, fun s hwf => ⟨?none, fun i e hnext => ?next⟩⟩
  case poll =>
    rw [arbitrate_poll hu hnot]
    exact ⟨fun _ _ => choosePoll_some, choosePoll_none⟩
  case none => rw [nextPoll_eq_none_iff, stationList_eq_nil_iff hwf]
  case next =>
    have hrising := stationList_pairwise hwf
    obtain ⟨hentry, haddr⟩ := (mem_stationList_iff hwf).mp (mem_of_nextPoll hnext)
    refine ⟨hentry, haddr, fun hpos j hj => ?first, fun p hpos => ⟨fun j hpj hj => ?after, fun hnone j hj => ?wraps⟩⟩
    case first => exact head?_index_le hrising ((nextPoll_first hpos).symm.trans hnext) (mem_stationList_of_addr hwf hj)
    case after =>
      have hmem := mem_stationList_of_addr hwf hj
      cases hfind : s.stationList.find? (fun q => p < q.1) with
      | none => exact absurd hpj (by simpa using List.find?_eq_none.mp hfind _ hmem)
      | some q =>
        obtain rfl := Option.some.inj ((nextPoll_after hpos hfind).symm.trans hnext)
        exact ⟨by simpa using List.find?_some hfind, find?_index_le hrising hfind hmem (by simpa using hpj)⟩
    case wraps =>
      have hfind : s.stationList.find? (fun q => p < q.1) = none := by
        refine List.find?_eq_none.mpr fun q hq => ?_
        obtain ⟨hread, hne⟩ := (mem_stationList_iff hwf).mp hq
        have hle : ¬ p < q.1 := fun hlt => hne (hread ▸ hnone q.1 hlt)
        simpa using hle
      exact head?_index_le hrising ((nextPoll_wraps hpos hfind).symm.trans hnext) (mem_stationList_of_addr hwf hj)

/-- Settles O12, queue by queue. -/
theorem fieldQueuesTakeFrames : Obligations.FieldQueuesTakeFrames := by
  intro s
  refine ⟨fun dst kind payload => ⟨fun hnew => ?tail, fun front g back hq hg hfront => ?replaces⟩,
    fun o dst kind payload hroom => offerOrdinary_room _ hroom, fun it => offerOrdinary_room it, fun it hfull => ?full,
    arbitrateIfIdle_idle, arbitrateIfIdle_busy⟩
  case tail => rw [queueUrgent, urgentPut_tail hnew]
  case replaces =>
    have hput := urgentPut_replaces (back := back) (f := ⟨dst, s.mga.live.ownAddress, kind, payload⟩) hg hfront
    rw [queueUrgent, hq, hput]
  case full =>
    rw [offerOrdinary_full it hfull, alertRec_raiseCongestion, alertRec_latchRecord, if_pos rfl]
    exact ⟨raiseCongestion_reported s _, rfl, rfl⟩

/-- Settles O13, origin by origin. -/
theorem framesAreTestedBeforeSending : Obligations.FramesAreTestedBeforeSending := by
  refine ⟨fun s f => ⟨sendTest_site_config, fun why ha => sendTest_site_blocked ha, fun ha hpass => ⟨fun h he hk hp hh => ?manual,
    fun hother => ?passes⟩, fun e z => sendTest_chime, sendTest_chime_noZone,
    fun h he hk hp => sendTest_unlock (isUnlock_iff.mpr ⟨hk, hp⟩),
    fun hk hp => sendTest_unlock_noHatch (isUnlock_iff.mpr ⟨hk, hp⟩),
    fun h => sendTest_hoc_other (isUnlock_eq_false_iff.mpr h), sendTest_cls_other, fun hk hgone => ?gone, rfl⟩,
    fun s f e z hk hs hact hz => ?drive⟩
  case manual => rw [sendTest_site_passes ha hpass, setManual_unlock (isUnlock_iff.mpr ⟨hk, hp⟩) hh]
  case passes =>
    rw [sendTest_site_passes ha hpass, setManual_other]
    rw [isUnlock_eq_false_iff]
    exact or_assoc.mpr hother
  case gone => rw [sendTest_drive hk, sendTestDrive_gone hgone]
  case drive =>
    rw [sendTest_drive hk]
    exact ⟨rfl, sendTestDrive_latched hs hz, sendTestDrive_humidifier hs hact hz, sendTestDrive_dehumidifier hs hact hz⟩

end Sys2Proof.Proofs
end

section
/-! Stages, the UNMONITORED flag and the release gate (R71 to R75, R88, R89). -/
namespace Sys2Proof.Machine

theorem stageOfPayload_eq (p : List Byte) :
    stageOfPayload p = if p = [0] then .clear else if p = [1] then .low else if p = [2] then .high else .fault := by
  match p with
  | [] => rfl
  | b :: c :: p => simp [stageOfPayload]
  | [b] =>
    have hcode : ∀ n : Byte, [b] = [n] ↔ b.toNat = n.toNat := fun n => by simp [BitVec.toNat_inj]
    simp only [hcode, stageOfPayload, nat1, byteAt, List.getD_cons_zero, List.length_singleton, ne_eq, not_true, if_false]
    match b.toNat with
    | 0 | 1 | 2 | _ + 3 => rfl

theorem Stage.detectorFault_iff (g : Stage) : g.detectorFault = true ↔ g = .fault ∨ g = .silent := by
  cases g <;> simp [Stage.detectorFault]

theorem Stage.usable_iff (g : Stage) : g.usable = true ↔ g = .clear ∨ g = .low ∨ g = .high := by
  cases g <;> simp [Stage.usable]

namespace State

section
variable {s : State}

/-! ### DETECTOR_FAULT -/

theorem detectorFaultFollows_eq (s : State) (a : Nat) (old new : Stage) :
    s.detectorFaultFollows a old new =
      if (new = .fault ∨ new = .silent) ∧ ¬ (old = .fault ∨ old = .silent) then s.raiseCondition .detectorFault a
      else if (old = .fault ∨ old = .silent) ∧ ¬ (new = .fault ∨ new = .silent) then s.lower .detectorFault a
      else s := by
  simp only [detectorFaultFollows, ← Stage.detectorFault_iff]
  cases old.detectorFault <;> cases new.detectorFault <;> rfl

theorem detectorFaultFollows_reported (s : State) (a : Nat) (old new : Stage) :
    Reported s (s.detectorFaultFollows a old new) := by
  rw [detectorFaultFollows_eq]
  split
  · exact raiseCondition_reported _ _ _
  · split
    · exact lower_reported _ _ _
    · exact Reported.rfl' s

/-! ### UNMONITORED -/

theorem mem_stagesOf (z : Nat) (k : InputKind → Bool) (g : Stage) :
    g ∈ s.stagesOf z k ↔ ∃ e ∈ s.inputsOf z k, s.inputStage e.index = g := List.mem_map

theorem anyHigh_iff (z : Nat) (k : InputKind) :
    s.anyHigh z k = true ↔ ∃ e ∈ s.inputsOf z (fun j => j = k), s.inputStage e.index = .high := by
  rw [← mem_stagesOf, anyHigh]
  simp

theorem unmonitoredNow_eq_false_iff (z : Nat) :
    s.unmonitoredNow z = false ↔ ∃ e ∈ s.inputsOf z (fun k => k = .smoke || k = .heat),
      s.inputStage e.index = .clear ∨ s.inputStage e.index = .low ∨ s.inputStage e.index = .high := by
  simp only [unmonitoredNow, Bool.not_eq_false', List.any_eq_true, mem_stagesOf, ← Stage.usable_iff]
  constructor
  · rintro ⟨_, ⟨e, he, rfl⟩, hu⟩; exact ⟨e, he, hu⟩
  · rintro ⟨e, he, hu⟩; exact ⟨_, ⟨e, he, rfl⟩, hu⟩

theorem recomputeUnmonitored_same {z : Nat} (h : s.unmonitoredNow z = (s.fire z).unmonitored) :
    s.recomputeUnmonitored z = s := if_pos h

theorem recomputeUnmonitored_set {z : Nat} (hnow : s.unmonitoredNow z = true) (hwas : (s.fire z).unmonitored = false) :
    s.recomputeUnmonitored z
      = (if ∃ p ∈ s.stationList, p.2.zone = some z then
          (s.setFire z { s.fire z with unmonitored := true }).raiseCondition .zoneUnmonitored z
         else s.setFire z { s.fire z with unmonitored := true }).hand (.zoneReport z (.unmonitoredChanged true)) := by
  have hstations : (s.setFire z { s.fire z with unmonitored := true }).zoneHasStations z = s.zoneHasStations z := rfl
  simp only [← zoneHasStations_iff]
  simp [recomputeUnmonitored, hnow, hwas, hstations]

theorem recomputeUnmonitored_cleared {z : Nat} (hnow : s.unmonitoredNow z = false) (hwas : (s.fire z).unmonitored = true) :
    s.recomputeUnmonitored z
      = ((s.setFire z { s.fire z with unmonitored := false }).lower .zoneUnmonitored z).hand
          (.zoneReport z (.unmonitoredChanged false)) := by simp [recomputeUnmonitored, hnow, hwas]

/-- Recomputing the flag reports, hands on, and sets the flag of one zone. -/
theorem recomputeUnmonitored_cases (s : State) (z : Nat) : s.recomputeUnmonitored z = s
    ∨ ∃ u v c, Reported (s.setFire z { s.fire z with unmonitored := u }) v ∧ s.recomputeUnmonitored z = v.hand c := by
  cases hnow : s.unmonitoredNow z <;> cases hwas : (s.fire z).unmonitored
  case false.false | true.true => exact .inl (recomputeUnmonitored_same (hnow.trans hwas.symm))
  case false.true =>
    exact .inr ⟨_, _, _, lower_reported _ _ _, recomputeUnmonitored_cleared hnow hwas⟩
  case true.false =>
    refine .inr ⟨true, _, _, ?_, recomputeUnmonitored_set hnow hwas⟩
    split
    · exact raiseCondition_reported _ _ _
    · exact Reported.rfl' _

theorem fireState_of_frs {s t : State} (h : t.frs = s.frs) (z : Nat) : t.fireState z = s.fireState z := by
  simp only [fireState, fire, h]

theorem zone_of_cls {s t : State} (h : t.cls = s.cls) (z : Nat) : t.zone z = s.zone z := by simp only [zone, h]

theorem recomputeUnmonitored_fireState (s : State) (z y : Nat) :
    (s.recomputeUnmonitored z).fireState y = s.fireState y := by
  obtain h | ⟨u, v, c, hv, h⟩ := recomputeUnmonitored_cases s z
  · rw [h]
  · rw [h]
    refine (fireState_of_frs (s := s.setFire z { s.fire z with unmonitored := u }) hv.frs y).trans ?_
    simp only [fireState, fire_setFire]
    split
    · rename_i hy; rw [hy]
    · rfl

theorem recomputeUnmonitored_cls (s : State) (z : Nat) : (s.recomputeUnmonitored z).cls = s.cls := by
  obtain h | ⟨u, v, c, hv, h⟩ := recomputeUnmonitored_cases s z
  · rw [h]
  · rw [h]
    exact hv.cls

/-! ### The release gate -/

theorem hatchKnownClosed_iff (h : Nat) : s.hatchKnownClosed h = true
    ↔ (s.hatchRuntime h).position = .closedLocked ∧ (s.hatchRuntime h).unitSilent = false := by
  simp [hatchKnownClosed]

theorem releaseGate_iff (z : Nat) :
    s.releaseGate z = true ↔ (∃ e ∈ s.inputsOf z (fun k => k = .holdSwitch), s.inputStage e.index = .high)
      ∨ ∃ h he, s.hatchByInner z = some (h, he)
          ∧ ¬ ((s.hatchRuntime h).position = .closedLocked ∧ (s.hatchRuntime h).unitSilent = false) := by
  rw [releaseGate, Bool.or_eq_true, anyHigh_iff]
  refine or_congr_right ?_
  cases hin : s.hatchByInner z with
  | none => simp
  | some p =>
    obtain ⟨h, he⟩ := p
    simp [← hatchKnownClosed_iff]

theorem regateRelease_countdown {z : Nat} (h : s.fireState z = .releaseCountdown) {g : Bool} (hg : s.releaseGate z = g) :
    s.regateRelease z = s.setReleaseTimer z { s.releaseTimer z with gated := g } := by
  rw [regateRelease, if_pos h, hg]
  rfl

theorem regateRelease_other {z : Nat} (h : s.fireState z ≠ .releaseCountdown) : s.regateRelease z = s := if_neg h

/-! ### A change of stage -/

theorem inputChanged_hold {z : Nat} {old new : Stage} (h : s.fireState z = .releaseCountdown) :
    s.inputChanged z .holdSwitch old new
      = (if old = .high then s.setReleaseTimer z (s.releaseTimer z).trigger else s).regateRelease z := if_pos h

theorem inputChanged_hold_other {z : Nat} {old new : Stage} (h : s.fireState z ≠ .releaseCountdown) :
    s.inputChanged z .holdSwitch old new = s := if_neg h

theorem inputChanged_release {z : Nat} {old new : Stage} (hnew : new = .high) (h : s.fireState z = .alarm)
    (hfit : (s.zone z).fitted = true) : s.inputChanged z .releaseSwitch old new = s.enterCountdown z :=
  if_pos ⟨hnew, h, hfit⟩

theorem inputChanged_release_other {z : Nat} {old new : Stage}
    (h : new ≠ .high ∨ s.fireState z ≠ .alarm ∨ (s.zone z).fitted = false) :
    s.inputChanged z .releaseSwitch old new = s := by
  refine if_neg ?_
  rintro ⟨h1, h2, h3⟩
  simp [h1, h2, h3] at h

theorem inputChanged_detector {z : Nat} {k : InputKind} {old new : Stage} (h : k = .smoke ∨ k = .heat ∨ k = .callPoint) :
    s.inputChanged z k old new = s.evaluateFire z := by
  obtain rfl | rfl | rfl := h <;> rfl

/-- A stage as stored, and DETECTOR_FAULT after it (R72, R74). -/
def stageStored (s : State) (e : StationEntry) (new : Stage) : State :=
  (s.setInputStage e.index new).detectorFaultFollows e.addr (s.inputStage e.index) new

theorem setStage_repeated {e : StationEntry} {new : Stage} (h : new = s.inputStage e.index) : s.setStage e new = s :=
  if_pos h.symm

theorem setStage_noZone {e : StationEntry} {new : Stage} (h : new ≠ s.inputStage e.index) (hz : e.zone = none) :
    s.setStage e new = s.stageStored e new := by
  rw [setStage, if_neg (Ne.symm h), hz]
  rfl

theorem setStage_zone {e : StationEntry} {new : Stage} (h : new ≠ s.inputStage e.index) {z : Nat} (hz : e.zone = some z) :
    s.setStage e new = ((s.stageStored e new).recomputeUnmonitored z).inputChanged z (s.inputKind e.index)
      (s.inputStage e.index) new := by
  rw [setStage, if_neg (Ne.symm h), hz]
  rfl

theorem stageStored_fireState (s : State) (e : StationEntry) (new : Stage) (z y : Nat) :
    ((s.stageStored e new).recomputeUnmonitored z).fireState y = s.fireState y :=
  (recomputeUnmonitored_fireState _ _ _).trans
    (fireState_of_frs (s := s.setInputStage e.index new) (detectorFaultFollows_reported _ _ _ _).frs y)

theorem stageStored_zone (s : State) (e : StationEntry) (new : Stage) (z y : Nat) :
    ((s.stageStored e new).recomputeUnmonitored z).zone y = s.zone y :=
  zone_of_cls ((recomputeUnmonitored_cls _ _).trans (detectorFaultFollows_reported _ _ _ _).cls) y

/-- A STAGE that reaches the Fire Supervisor is its change of stage. -/
theorem exec_stage {entry : Nat} (hserves : s.serves entry) (hkind : (s.station entry).kind = .fireInput) (p : List Byte) :
    exec (.stage entry p) s
      = .next ((s.takeHanded (.stage entry p)).setStage (s.station entry) (stageOfPayload p)) :=
  congrArg Host.Outcome.next (take_eq hserves (decide_eq_true hkind) _ _)

end
end State
end Sys2Proof.Machine

namespace Sys2Proof.Proofs
open Sys2Proof.Machine Sys2Proof.Machine.State

/-- Settles O27: a STAGE by the kind of its input, then the flag and the gate by what they depend on. Storing a stage moves no
fire state and no zone entry. -/
theorem stagesUnmonitoredAndReleaseGate : Obligations.StagesUnmonitoredAndReleaseGate := by
  refine ⟨fun s entry p hserves hkind => ?stage, fun s z => ?flagAndGate⟩
  case stage =>
    intro e s0 old new s1 s2
    have hstored : s0.stageStored e new = s2 := detectorFaultFollows_eq _ _ _ _
    rw [exec_stage hserves hkind, stageOfPayload_eq]
    refine ⟨fun h => congrArg _ (setStage_repeated h),
      fun h hz => congrArg _ ((setStage_noZone (s := s0) h hz).trans hstored), fun z h hz => ?_⟩
    intro s3
    have hs3 : (s0.stageStored e new).recomputeUnmonitored z = s3 := congrArg (recomputeUnmonitored · z) hstored
    have hset : s0.setStage e new = s3.inputChanged z (s.inputKind e.index) old new :=
      hs3 ▸ setStage_zone (s := s0) h hz
    have hfire : s3.fireState z = s.fireState z := hs3 ▸ stageStored_fireState s0 e new z z
    have hzone : s3.zone z = s.zone z := hs3 ▸ stageStored_zone s0 e new z z
    refine ⟨fun hk => ?hold, fun hk => ?release, fun hk => congrArg _ (hset.trans (inputChanged_detector hk))⟩
    case hold =>
      rw [hk] at hset
      exact ⟨fun hs => congrArg _ (hset.trans (inputChanged_hold_other (hfire ▸ hs))),
        fun hs ho => congrArg _ (hset.trans ((inputChanged_hold (hfire.trans hs)).trans (by rw [if_pos ho]))),
        fun hs ho => congrArg _ (hset.trans ((inputChanged_hold (hfire.trans hs)).trans (by rw [if_neg ho])))⟩
    case release =>
      rw [hk] at hset
      rw [← hfire, ← hzone]
      exact ⟨fun hn hs hf => congrArg _ (hset.trans (inputChanged_release hn hs hf)),
        fun hno => congrArg _ (hset.trans (inputChanged_release_other hno))⟩
  case flagAndGate =>
    intro monitored setTo gate
    have hmon : s.unmonitoredNow z = false ↔ monitored := unmonitoredNow_eq_false_iff z
    have hunmon : ¬ monitored → s.unmonitoredNow z = true := fun h => by simpa using mt hmon.mp h
    have hgate : s.releaseGate z = true ↔ gate := releaseGate_iff z
    exact ⟨fun hm hu => recomputeUnmonitored_same ((hmon.mpr hm).trans hu.symm),
      fun hm hu => recomputeUnmonitored_same ((hunmon hm).trans hu.symm),
      fun hm => recomputeUnmonitored_set (hunmon hm), fun hm => recomputeUnmonitored_cleared (hmon.mpr hm),
      fun hs hg => regateRelease_countdown hs (hgate.mpr hg),
      fun hs hg => regateRelease_countdown hs (by simpa using mt hgate.mp hg), regateRelease_other⟩

end Sys2Proof.Proofs
end

section
/-! What readings of the state follow from the records they read. -/
namespace Sys2Proof.Machine
namespace State

variable {s t : State}

theorem active_of_mga (h : t.mga = s.mga) : t.active = s.active := by simp only [active, h]

theorem station_of_cgt (h : t.cgt = s.cgt) (i : Nat) : t.station i = s.station i := by simp only [station, h]

theorem awaiting_of_segment (h : t.fsp.segment = s.fsp.segment) : t.awaiting = s.awaiting := by simp only [awaiting, h]

theorem activeOn_of_consignments (h : t.hoc.consignments = s.hoc.consignments) (i : Nat) : t.activeOn i = s.activeOn i := by
  simp only [activeOn, h]

theorem regateRelease_hoc (s : State) (z : Nat) : (s.regateRelease z).hoc = s.hoc := by
  unfold regateRelease
  split <;> rfl

end State
end Sys2Proof.Machine
end

section
/-! The missed count, the SILENT mark and the owners told of it (R12, R26, R50, R71, R122). -/
namespace Sys2Proof.Machine
namespace State

section
variable {s : State} {i a : Nat}

theorem counts_false_of {rewritten : Bool} (h : rewritten = true ∨ (s.station i).addr ≠ a) :
    s.counts i a rewritten = false := by
  obtain rfl | h := h
  · rfl
  · simp [counts, h]

theorem counts_polled (h : (s.station i).addr = a) : s.counts i a false = true := by simp [counts, h]

theorem missedResponse_below (h : (s.station i).addr = a) (hm : (s.stationRuntime i).missed < 2) :
    s.missedResponse i a false
      = s.setStationRuntime i { s.stationRuntime i with missed := (s.stationRuntime i).missed + 1 } := by
  rw [missedResponse, if_pos (counts_polled h)]
  exact if_pos (by omega)

theorem missedResponse_third (h : (s.station i).addr = a) (hm : 2 ≤ (s.stationRuntime i).missed)
    (hs : (s.stationRuntime i).silent = false) {u : State}
    (hu : u = (s.setStationRuntime i { s.stationRuntime i with missed := 3, silent := true }).raiseCondition
      .stationSilent a) :
    s.missedResponse i a false = if s.active then u.tellSilent (s.station i) else u := by
  have hr : Reported (s.setStationRuntime i { s.stationRuntime i with missed := 3, silent := true }) u :=
    hu ▸ raiseCondition_reported _ _ _
  have hactive : u.active = s.active := active_of_mga hr.mga
  have hstation : u.station i = s.station i := station_of_cgt hr.cgt i
  rw [missedResponse, if_pos (counts_polled h)]
  dsimp only
  rw [if_neg (by omega), hs, if_neg Bool.false_ne_true, ← hu, hactive, hstation]

theorem missedResponse_silent (h : (s.station i).addr = a) (hm : 2 ≤ (s.stationRuntime i).missed)
    (hs : (s.stationRuntime i).silent = true) :
    s.missedResponse i a false = s.setStationRuntime i { s.stationRuntime i with missed := 3 } := by
  rw [missedResponse, if_pos (counts_polled h)]
  dsimp only
  rw [if_neg (by omega), if_pos hs, ← hs]

theorem answeredPoll_heard (h : (s.station i).addr = a) (hs : (s.stationRuntime i).silent = false) :
    s.answeredPoll i a false = s.setStationRuntime i { s.stationRuntime i with missed := 0 } := by
  rw [answeredPoll, if_pos (counts_polled h)]
  dsimp only
  rw [hs, if_neg Bool.false_ne_true, ← hs]

theorem answeredPoll_returned (h : (s.station i).addr = a) (hs : (s.stationRuntime i).silent = true) {u : State}
    (hu : u = (s.setStationRuntime i { s.stationRuntime i with missed := 0, silent := false }).lower .stationSilent a) :
    s.answeredPoll i a false = if s.active then u.tellReturned (s.station i) else u := by
  have hr : Reported (s.setStationRuntime i { s.stationRuntime i with missed := 0, silent := false }) u :=
    hu ▸ lower_reported _ _ _
  have hactive : u.active = s.active := active_of_mga hr.mga
  have hstation : u.station i = s.station i := station_of_cgt hr.cgt i
  rw [answeredPoll, if_pos (counts_polled h)]
  dsimp only
  rw [if_pos hs, ← hu, hactive, hstation]

end

section
variable {s : State} {e : StationEntry}

theorem tellSilent_probe (hk : e.kind = .probe) : s.tellSilent e = s.probeSilent e := by rw [tellSilent, hk]
theorem tellSilent_input (hk : e.kind = .fireInput) : s.tellSilent e = s.setStage e .silent := by rw [tellSilent, hk]
theorem tellSilent_hatch (hk : e.kind = .hatchUnit) : s.tellSilent e = s.hatchSilent e := by rw [tellSilent, hk]
theorem tellReturned_probe (hk : e.kind = .probe) : s.tellReturned e = s.probeReturned e := by rw [tellReturned, hk]
theorem tellReturned_input (hk : e.kind = .fireInput) : s.tellReturned e = s.setStage e .noReport := by
  rw [tellReturned, hk]
theorem tellReturned_hatch (hk : e.kind = .hatchUnit) : s.tellReturned e = s.hatchReturned e := by rw [tellReturned, hk]

theorem tell_other (hk : e.kind = .reader ∨ e.kind = .courierTerminal ∨ e.kind = .actuator ∨ e.kind = .other) :
    s.tellSilent e = s ∧ s.tellReturned e = s := by
  obtain hk | hk | hk | hk := hk <;> simp [tellSilent, tellReturned, hk]

theorem probeSilent_valued (h : s.probeState e.index ≠ .fault) :
    s.probeSilent e = (s.setProbeState e.index .silent).evaluateClimateOf e.zone := by
  simp only [probeSilent, if_neg h]

theorem probeSilent_fault (h : s.probeState e.index = .fault) :
    s.probeSilent e = ((s.setProbeState e.index .silent).lower .probeFault e.addr).evaluateClimateOf e.zone := by
  simp only [probeSilent, if_pos h]

/-- DETECTOR_FAULT where SILENT is set and where it is cleared (R74). -/
theorem stageStored_silentChange {new : Stage} (hnew : new = .silent ∨ new = .noReport)
    (hchange : new ≠ s.inputStage e.index) :
    s.stageStored e new =
      if new = .silent ∧ s.inputStage e.index ≠ .fault then
        (s.setInputStage e.index new).raiseCondition .detectorFault e.addr
      else if new = .noReport ∧ (s.inputStage e.index = .fault ∨ s.inputStage e.index = .silent) then
        (s.setInputStage e.index new).lower .detectorFault e.addr
      else s.setInputStage e.index new := by
  rw [stageStored, detectorFaultFollows_eq]
  obtain rfl | rfl := hnew
  · simp [Ne.symm hchange]
  · simp

theorem hatchSilent_unknown (h : s.hatchByUnit e.addr = none) : s.hatchSilent e = s := by rw [hatchSilent, h]

theorem hatchReturned_unknown (h : s.hatchByUnit e.addr = none) : s.hatchReturned e = s := by rw [hatchReturned, h]

theorem hatchReturned_hatch {h : Nat} {he : HatchEntry} (hu : s.hatchByUnit e.addr = some (h, he)) :
    s.hatchReturned e
      = (s.setHatchRuntime h { s.hatchRuntime h with unitSilent := false, position := .noReport }).regateRelease
          he.inner := by rw [hatchReturned, hu]

/-- The hatch once its unit is marked SILENT (R122). -/
def unitSilenced (s : State) (h : Nat) (he : HatchEntry) : State :=
  (s.setHatchRuntime h { s.hatchRuntime h with unitSilent := true, position := .noReport }).regateRelease he.inner

theorem hatchSilent_hatch {h : Nat} {he : HatchEntry} (hu : s.hatchByUnit e.addr = some (h, he)) :
    s.hatchSilent e = match s.activeOn h with
      | none => s.unitSilenced h he
      | some c => if c.state = .aborting then s.unitSilenced h he
          else (((s.unitSilenced h he).begin).abort c .hatchFault).finish := by
  have hcons : (s.unitSilenced h he).activeOn h = s.activeOn h :=
    activeOn_of_consignments (by rw [unitSilenced, regateRelease_hoc]; rfl) h
  rw [← hcons, hatchSilent, hu]
  rfl

end

end State
end Sys2Proof.Machine

namespace Sys2Proof.Proofs
open Sys2Proof.Machine Sys2Proof.Machine.State

/-- Settles O14: the counts by whether they reach three, and each owner by the kind of its station. -/
theorem missedCountAndSilentMark : Obligations.MissedCountAndSilentMark := by
  intro s i a rewritten
  refine ⟨fun h => ?notCounted, fun h => ?counted, fun e => ⟨fun hk => ?probe, fun hk => ?input, fun hk => ?hatch, tell_other⟩⟩
  case notCounted =>
    have hno := counts_false_of h
    exact ⟨if_neg (by simp [hno]), if_neg (by simp [hno])⟩
  case counted =>
    exact ⟨missedResponse_below h, fun hm hs => missedResponse_third h hm hs rfl, missedResponse_silent h,
      answeredPoll_heard h, fun hs => answeredPoll_returned h hs rfl⟩
  case probe =>
    rw [tellSilent_probe hk, tellReturned_probe hk]
    exact ⟨probeSilent_valued, probeSilent_fault, rfl⟩
  case input =>
    refine ⟨tellSilent_input hk, tellReturned_input hk, fun new hnew => ?_⟩
    intro old u v
    refine ⟨setStage_repeated, fun h hz => ?_, fun z h hz => ?_⟩
    · exact (setStage_noZone h hz).trans (stageStored_silentChange hnew h)
    · intro w
      have hw : (s.stageStored e new).recomputeUnmonitored z = w :=
        congrArg (recomputeUnmonitored · z) (stageStored_silentChange hnew h)
      have hset : s.setStage e new = w.inputChanged z (s.inputKind e.index) old new := hw ▸ setStage_zone h hz
      have hfire : w.fireState z = s.fireState z := hw ▸ stageStored_fireState s e new z z
      rw [hset, ← hfire]
      refine ⟨fun hk hs => hk ▸ inputChanged_hold hs, fun hk hs => hk ▸ inputChanged_hold_other hs,
        fun hk => hk ▸ inputChanged_release_other (.inl ?_), inputChanged_detector⟩
      obtain rfl | rfl := hnew <;> decide
  case hatch =>
    rw [tellSilent_hatch hk, tellReturned_hatch hk]
    refine ⟨fun h => ⟨hatchSilent_unknown h, hatchReturned_unknown h⟩, fun h he hu => ?_⟩
    rw [hatchSilent_hatch hu]
    refine ⟨fun hc => by rw [hc]; rfl, fun c hc => ?_, hatchReturned_hatch hu⟩
    rw [hc]
    exact ⟨fun hs => if_pos hs, fun hs => if_neg hs⟩

end Sys2Proof.Proofs
end

section
/-! Frames of the field segment in and out of a window, and the classification and dispatch of responses (R10, R11, R22 to
R25). -/
namespace Sys2Proof.Machine

/-- The first byte of a SCAN of each intent (11.3). -/
def Intent.byte : Intent → Byte
  | .take => 0
  | .ret => 1
  | .handover => 2
  | .receive => 3

namespace State

/-! ### The window's outcomes -/

section
variable {s : State} {bytes : List Byte} {i a : Nat} {rewritten : Bool}

theorem awaiting_iff : s.awaiting = true ↔ ∃ i a b, s.fsp.segment = .awaiting i a b := by
  unfold awaiting
  cases s.fsp.segment <;> simp

theorem judgeResponse_failed (h : readFrame bytes = none) :
    s.judgeResponse i a rewritten bytes = (s.raiseEvent .frameErrors 1).missedResponse i a rewritten := by
  simp only [judgeResponse, h]
  rfl

section
variable {f : Frame} (h : readFrame bytes = some f)
include h

theorem judgeResponse_foreign (hsrc : f.src ≠ a) :
    s.judgeResponse i a rewritten bytes = (s.raiseEvent .unknownReplySource a).missedResponse i a rewritten := by
  simp only [judgeResponse, h]
  exact if_pos hsrc

theorem judgeResponse_request (hsrc : f.src = a) (hkind : f.kind = 0x30) :
    s.judgeResponse i a rewritten bytes = (s.raiseEvent .foreignManagement a).missedResponse i a rewritten := by
  simp only [judgeResponse, h]
  exact (if_neg (Classical.not_not.mpr hsrc)).trans (if_pos hkind)

theorem judgeResponse_valid (hsrc : f.src = a) (hkind : f.kind ≠ 0x30) :
    s.judgeResponse i a rewritten bytes = (s.answeredPoll i a rewritten).classifyResponse i f := by
  simp only [judgeResponse, h]
  exact (if_neg (Classical.not_not.mpr hsrc)).trans (if_neg hkind)

end

theorem fieldFrameDone_window (hseg : s.fsp.segment = .awaiting i a rewritten) :
    s.fieldFrameDone true bytes = (s.judgeResponse i a rewritten bytes).arbitrate := by simp only [fieldFrameDone, hseg]

theorem fieldFrameDone_outOfTurn {own : Bool} (h : own = false ∨ ¬ s.awaiting = true) :
    s.fieldFrameDone own bytes = s.raiseEvent .frameErrors 1 := by
  unfold fieldFrameDone
  split
  · rename_i hseg
    exact absurd (awaiting_iff.mpr ⟨_, _, _, hseg⟩) (h.resolve_left (by simp))
  · rfl

/-- The mark of the field receiver's partial frame, in the words of R10. -/
theorem markAfter_eq (s : State) (b : List Byte) : s.markAfter b
    = if s.fsp.rx = [] then decide (b ≠ []) && s.awaiting else s.fsp.rxInWindow := by
  have hempty : (!b.isEmpty) = decide (b ≠ []) := by cases b <;> rfl
  simp only [State.markAfter, hempty, List.isEmpty_iff]

/-- The bytes of one complete frame that begin in a window. -/
theorem exec_fieldResponse_one (hrx : s.fsp.rx = []) (hc : IsComplete bytes)
    (hseg : s.fsp.segment = .awaiting i a rewritten) :
    exec (.fieldResponse bytes) s
      = .next ((((s.inWindow true).judgeResponse i a rewritten bytes).arbitrate).inWindow false) := by
  have hne : bytes ≠ [] := List.ne_nil_of_length_pos hc.pos
  have hs : ({ s with fsp := { s.fsp with rx := [], rxInWindow := true } } : State) = s.inWindow true := by
    rw [inWindow, ← hrx]
  have hmark : true = if s.fsp.rx.isEmpty then !bytes.isEmpty && s.awaiting else s.fsp.rxInWindow := by
    simp [hrx, hne, awaiting_iff.mpr ⟨i, a, rewritten, hseg⟩]
  have hkept : ((s.inWindow true).fieldFrameDone true bytes).fsp.rx = [] := (fieldFrameDone_rx _ _ _).trans hrx
  have hone := fieldBytes_one s bytes (by simpa [hrx] using hc) true hmark (by rw [hs, hrx]; exact hkept)
  rw [hs, hrx, List.nil_append, fieldFrameDone_window (s := s.inWindow true) hseg] at hone
  exact congrArg _ hone

/-- The bytes that complete a frame which began out of turn. -/
theorem exec_fieldFrameOutOfTurn_one (hin : s.fsp.rxInWindow = false)
    (hout : s.fsp.rx ≠ [] ∨ ∀ i a b, s.fsp.segment ≠ .awaiting i a b) (hc : IsComplete (s.fsp.rx ++ bytes)) :
    exec (.fieldFrameOutOfTurn bytes) s
      = .next (State.raiseEvent { s with fsp := { s.fsp with rx := [] } } .frameErrors 1) := by
  have hs : ({ s with fsp := { s.fsp with rx := [], rxInWindow := false } } : State)
      = { s with fsp := { s.fsp with rx := [] } } := by rw [← hin]
  have hmark : false = if s.fsp.rx.isEmpty then !bytes.isEmpty && s.awaiting else s.fsp.rxInWindow := by
    obtain hne | hseg := hout
    · simp [hne, hin]
    · have hclosed : s.awaiting = false := by
        rw [← Bool.not_eq_true, awaiting_iff]
        rintro ⟨i, a, b, h⟩
        exact hseg i a b h
      simp [hclosed, hin]
  have hdone := fieldFrameDone_outOfTurn (s := { s with fsp := { s.fsp with rx := [] } }) (bytes := s.fsp.rx ++ bytes)
    (own := false) (.inl rfl)
  have hraised := raiseEvent_reported { s with fsp := { s.fsp with rx := [] } } .frameErrors 1
  have hone := fieldBytes_one s bytes hc false hmark (by rw [hs, hdone, hraised.fsp])
  rw [hs, hdone] at hone
  refine congrArg _ (hone.trans ?_)
  generalize State.raiseEvent { s with fsp := { s.fsp with rx := [] } } .frameErrors 1 = u at hraised ⊢
  have hu : u.fsp.rxInWindow = false := by rw [hraised.fsp]; exact hin
  rw [inWindow, ← hu]

end

/-! ### Classification -/

section
variable {s : State} {i : Nat} {f : Frame}

theorem consumedKind_iff (k : Nat) : consumedKind k = true ↔ k ∈ [0x13, 0x14, 0x15, 0x16, 0x17, 0x18] := by
  rw [consumedKind, decide_eq_true_iff]
  simp [Kind.scan, Kind.arrive, Kind.caseFigures, Kind.accept, Kind.confirm, Kind.done]

theorem classifyResponse_idle (h : f.kind = 0x02) : s.classifyResponse i f = s := if_pos h

theorem classifyResponse_config (h : f.kind ≠ 0x02) (hc : s.active = false) :
    s.classifyResponse i f = s.offerSite ⟨f, .forwarded⟩ :=
  (if_neg h).trans (if_neg (by simp [hc]))

theorem classifyResponse_active (h : f.kind ≠ 0x02) (ha : s.active = true) (hne : (s.station i).addr ≠ 0) :
    s.classifyResponse i f = (if consumedKind f.kind then s else s.forwardByPolicy i (s.station i) f).dispatch
      (s.station i) i f :=
  (if_neg h).trans ((if_pos ha).trans (if_neg hne))

theorem dispatch_some {e : StationEntry} {c : Instr} (h : dispatchCommand e i f = some c) : s.dispatch e i f = s.hand c := by
  rw [dispatch, h]

theorem dispatch_none {e : StationEntry} (h : dispatchCommand e i f = none) : s.dispatch e i f = s := by rw [dispatch, h]

end

/-! ### Dispatch -/


theorem scanIntent_eq (p : List Byte) : scanIntent p = p.head?.bind (fun b => Intent.ofCode b.toNat) := by
  cases p <;> rfl

theorem intentOfCode_eq_some_iff (b : Byte) (n : Intent) : Intent.ofCode b.toNat = some n ↔ b = n.byte := by
  have hb : ∀ c : Byte, b = c ↔ b.toNat = c.toNat := fun c => (BitVec.toNat_inj).symm
  rw [hb]
  match b.toNat with
  | 0 | 1 | 2 | 3 | _ + 4 => cases n <;> simp [Intent.ofCode, Intent.byte]

/-- The intent of a SCAN is told by its first byte (R25). -/
theorem scanIntent_eq_some_iff (p : List Byte) (n : Intent) : scanIntent p = some n ↔ p.head? = some n.byte := by
  rw [scanIntent_eq]
  cases p <;> simp [intentOfCode_eq_some_iff]

section
variable {e : StationEntry} {i : Nat} {p : List Byte}

theorem scanCommand_door (hk : e.kind = .reader) (hr : e.role = .door) :
    some (scanCommand e i p) = match p.head? with
      | some 1 => some (.returnScan i p)
      | some 2 | some 3 => some (.wrongStationScan i p)
      | _ => some (.takeScan i p) := by
  have hscan : ∀ n, scanIntent p = some n ↔ p.head? = some n.byte := scanIntent_eq_some_iff p
  cases hn : scanIntent p with
  | some n => cases n <;> simp [scanCommand, hk, hr, hn, (hscan _).mp hn, Intent.byte]
  | none =>
    have hcommand : scanCommand e i p = .takeScan i p := by rw [scanCommand, hk, hr, hn]
    have hnot : ∀ n : Intent, p.head? ≠ some n.byte := fun n h => by simp [(hscan n).mpr h] at hn
    rw [hcommand]
    split
    · rename_i h; exact absurd h (hnot .ret)
    · rename_i h; exact absurd h (hnot .handover)
    · rename_i h; exact absurd h (hnot .receive)
    · rfl

theorem scanCommand_witness (hk : e.kind = .reader) (hr : e.role = .witness) :
    scanCommand e i p = if p.head? = some 3 then .scanReceive i p else .wrongStationScan i p := by
  have hscan : scanIntent p = some .receive ↔ p.head? = some 3 := scanIntent_eq_some_iff p .receive
  simp only [← hscan, scanCommand, hk, hr]
  cases scanIntent p with
  | none => rfl
  | some n => cases n <;> rfl

theorem scanCommand_terminal (hk : e.kind = .courierTerminal) :
    scanCommand e i p = if p.head? = some 2 then .scanHandover i p else .wrongStationScan i p := by
  have hscan : scanIntent p = some .handover ↔ p.head? = some 2 := scanIntent_eq_some_iff p .handover
  simp only [← hscan, scanCommand, hk]
  cases scanIntent p with
  | none => rfl
  | some n => cases n <;> rfl

theorem scanCommand_noRole (hk : e.kind = .reader) (hr : e.role = .none) : scanCommand e i p = .wrongStationScan i p := by
  unfold scanCommand
  rw [hk, hr]


/-! Which command takes a frame, by the kind of its station (R24). -/

theorem dispatchCommand_probe (hk : e.kind = .probe) (dst src kind : Nat) :
    dispatchCommand e i ⟨dst, src, kind, p⟩ = if kind = 0x10 then some (.sample i p) else none := by
  have hscans : e.scans = false := by simp [StationEntry.scans, hk]
  have hhatch : e.isHatchStation = false := by simp [StationEntry.isHatchStation, hk]
  by_cases h : kind = 0x10
  · simp [dispatchCommand, Kind.scan, Kind.sample, h, hk]
  · simp [dispatchCommand, Kind.sample, h, hk, hscans, hhatch]

theorem dispatchCommand_input (hk : e.kind = .fireInput) (dst src kind : Nat) :
    dispatchCommand e i ⟨dst, src, kind, p⟩ = if kind = 0x11 then some (.stage i p) else none := by
  have hscans : e.scans = false := by simp [StationEntry.scans, hk]
  have hhatch : e.isHatchStation = false := by simp [StationEntry.isHatchStation, hk]
  by_cases h : kind = 0x11
  · simp [dispatchCommand, Kind.scan, Kind.sample, Kind.stage, h, hk]
  · simp [dispatchCommand, Kind.stage, h, hk, hscans, hhatch]

theorem dispatchCommand_hatchUnit (hk : e.kind = .hatchUnit) (dst src kind : Nat) :
    dispatchCommand e i ⟨dst, src, kind, p⟩ = if kind = 0x12 then some (.position i p) else none := by
  have hscans : e.scans = false := by simp [StationEntry.scans, hk]
  have hhatch : e.isHatchStation = false := by simp [StationEntry.isHatchStation, hk]
  by_cases h : kind = 0x12
  · simp [dispatchCommand, Kind.scan, Kind.sample, Kind.stage, Kind.position, h, hk]
  · simp [dispatchCommand, Kind.position, h, hk, hscans, hhatch]

theorem dispatchCommand_silentKinds (hk : e.kind = .actuator ∨ e.kind = .other) (f : Frame) :
    dispatchCommand e i f = none := by
  have hscans : e.scans = false := by obtain hk | hk := hk <;> simp [StationEntry.scans, hk]
  have hhatch : e.isHatchStation = false := by obtain hk | hk := hk <;> simp [StationEntry.isHatchStation, hk]
  obtain hk | hk := hk <;> simp [dispatchCommand, hk, hscans, hhatch]

/-- The step frames of a hatch station. -/
theorem dispatchCommand_steps (hk : e.kind = .courierTerminal ∨ (e.kind = .reader ∧ e.role = .witness)) (dst src : Nat) :
    dispatchCommand e i ⟨dst, src, 0x14, p⟩ = some (.arrive i p)
    ∧ dispatchCommand e i ⟨dst, src, 0x15, p⟩ = some (.caseReport i p)
    ∧ dispatchCommand e i ⟨dst, src, 0x16, p⟩ = some (.accept i p)
    ∧ dispatchCommand e i ⟨dst, src, 0x17, p⟩ = some (.confirm i p)
    ∧ dispatchCommand e i ⟨dst, src, 0x18, p⟩ = some (.doneStep i p) := by
  have hhatch : e.isHatchStation = true := by
    obtain hk | ⟨hk, hr⟩ := hk
    · simp [StationEntry.isHatchStation, hk]
    · simp [StationEntry.isHatchStation, hk, hr]
  simp [dispatchCommand, Kind.scan, Kind.sample, Kind.stage, Kind.position, Kind.arrive, Kind.caseFigures, Kind.accept,
    Kind.confirm, Kind.done, hhatch]

theorem dispatchCommand_otherKinds (hk : e.kind = .courierTerminal ∨ e.kind = .reader) {kind : Nat}
    (h : kind ∉ [0x13, 0x14, 0x15, 0x16, 0x17, 0x18]) (dst src : Nat) :
    dispatchCommand e i ⟨dst, src, kind, p⟩ = none := by
  simp only [List.mem_cons, List.not_mem_nil, or_false, not_or] at h
  obtain ⟨hscan, harrive, hcase, haccept, hconfirm, hdone⟩ := h
  obtain hk | hk := hk <;>
    simp [dispatchCommand, Kind.scan, Kind.arrive, Kind.caseFigures, Kind.accept, Kind.confirm, Kind.done, hscan, harrive,
      hcase, haccept, hconfirm, hdone, hk]

theorem dispatchCommand_door_steps (hk : e.kind = .reader) (hr : e.role ≠ .witness) {kind : Nat} (h : kind ≠ 0x13)
    (dst src : Nat) : dispatchCommand e i ⟨dst, src, kind, p⟩ = none := by
  have hhatch : e.isHatchStation = false := by simp [StationEntry.isHatchStation, hk, hr]
  simp [dispatchCommand, Kind.scan, h, hk, hhatch]

theorem dispatchCommand_scan (hk : e.kind = .courierTerminal ∨ e.kind = .reader) (dst src : Nat) :
    dispatchCommand e i ⟨dst, src, 0x13, p⟩ = some (scanCommand e i p) := by
  have hscans : e.scans = true := by obtain hk | hk := hk <;> simp [StationEntry.scans, hk]
  simp [dispatchCommand, Kind.scan, hscans]

end
end State
end Sys2Proof.Machine

namespace Sys2Proof.Proofs
open Sys2Proof.Machine Sys2Proof.Machine.State

/-- Settles O15: the four outcomes of `judgeResponse` in a window, FRAME_ERRORS out of turn, and the first frame of more bytes
taken by the same rules (`fieldBytes_split`). -/
theorem fieldFramesInAndOutOfTheWindow : Obligations.FieldFramesInAndOutOfTheWindow := by
  refine ⟨fun s bytes i a rewritten hrx hc hseg => ?window, fun s bytes => exec_fieldFrameOutOfTurn_one,
    fun s bytes c hcommand => ?more⟩
  case window =>
    intro w
    rw [exec_fieldResponse_one hrx hc hseg]
    exact ⟨fun h => by rw [judgeResponse_failed h], fun f h hsrc => by rw [judgeResponse_foreign h hsrc],
      fun f h hsrc hk => by rw [judgeResponse_request h hsrc hk], fun f h hsrc hk => by rw [judgeResponse_valid h hsrc hk]⟩
  case more =>
    intro held open_ own
    have hexec : exec c s = .next (s.fieldBytes bytes) := by obtain rfl | rfl := hcommand <;> rfl
    have hown : s.markAfter bytes = own := markAfter_eq s bytes
    refine ⟨awaiting_iff, fun hshort => ?_, fun frame rest hheld hframe => ?_⟩
    · rw [hexec, fieldBytes_held s bytes (completeLength_none hshort), hown]
    · intro u goesOn
      have goes : ∀ v b, u.fieldFrameDone own frame = v → (!rest.isEmpty && v.awaiting) = b → goesOn v b := by
        intro v b hv hb
        have hsplit := fieldBytes_split s bytes frame rest hheld hframe
        rw [hown] at hsplit
        dsimp only at hsplit
        rw [hv, hb] at hsplit
        exact hexec.trans (congrArg _ hsplit)
      refine ⟨fun hout => ?outOfTurn, fun i a rewritten hin hseg => ?inWindow⟩
      case outOfTurn =>
        refine goes _ _ (fieldFrameDone_outOfTurn (hout.imp_right (mt awaiting_iff.mp))) ?_
        rw [awaiting_of_segment (s := s) (by rw [(raiseEvent_reported u _ _).fsp])]
        cases rest <;> rfl
      case inWindow =>
        have judged : ∀ v, u.judgeResponse i a rewritten frame = v → goesOn v.arbitrate false := fun v hv =>
          goes _ _ (by rw [hin, fieldFrameDone_window (s := u) hseg, hv]) (by rw [arbitrate_awaiting, Bool.and_false])
        exact ⟨fun h => judged _ (judgeResponse_failed h), fun f h =>
          ⟨fun hsrc => judged _ (judgeResponse_foreign h hsrc), fun hsrc hk => judged _ (judgeResponse_request h hsrc hk),
            fun hsrc hk => judged _ (judgeResponse_valid h hsrc hk)⟩⟩

/-- Settles O16: classification by the part state and the kind, dispatch by the station. -/
theorem responsesAreForwardedAndDispatched : Obligations.ResponsesAreForwardedAndDispatched := by
  refine ⟨fun s i f => ⟨classifyResponse_idle, classifyResponse_config, fun h ha hne => ?active,
    fun c => dispatch_some, dispatch_none⟩, fun e i dst p => ?dispatch⟩
  case active =>
    rw [classifyResponse_active h ha hne]
    exact ⟨fun hc => by rw [if_pos ((consumedKind_iff _).mpr hc)], fun hc => by rw [if_neg (mt (consumedKind_iff _).mp hc)]⟩
  case dispatch =>
    refine ⟨fun kind hk => dispatchCommand_probe hk _ _ _, fun kind hk => dispatchCommand_input hk _ _ _,
      fun kind hk => dispatchCommand_hatchUnit hk _ _ _, fun kind hk => dispatchCommand_silentKinds hk _,
      fun hk => dispatchCommand_steps hk _ _, fun kind hk h => dispatchCommand_otherKinds hk h _ _,
      fun kind hk hr h => dispatchCommand_door_steps hk hr h _ _, fun hk hr => ?door, fun hk hr => ?witness,
      fun hk hr => ?noRole, fun hk => ?terminal⟩
    case door => exact (dispatchCommand_scan (.inr hk) _ _).trans (scanCommand_door hk hr)
    case witness =>
      rw [dispatchCommand_scan (.inr hk), scanCommand_witness hk hr]
      split <;> rfl
    case noRole => rw [dispatchCommand_scan (.inr hk), scanCommand_noRole hk hr]
    case terminal =>
      rw [dispatchCommand_scan (.inl hk), scanCommand_terminal hk]
      split <;> rfl

end Sys2Proof.Proofs
end

section
/-! The second tick and the minute tick (R35, R36, R41). -/
namespace Sys2Proof.Machine

/-- The timers of a table at the listed places, each advanced once. -/
def Tab.advanceAt (l : List Nat) (t : Tab Timer) : Tab Timer :=
  l.foldl (fun t i => Tab.write .zero t i (Tab.read .zero t i).advance) t

/-- The listed places whose timers an advance brings to expiry. -/
def Tab.expiring (l : List Nat) (t : Tab Timer) : List Nat := l.filter (fun i => (Tab.read .zero t i).expires)

theorem Tab.read_advanceAt {l : List Nat} (hl : l.Nodup) (t : Tab Timer) (i : Nat) :
    Tab.read .zero (Tab.advanceAt l t) i
      = if i ∈ l then (Tab.read .zero t i).advance else Tab.read .zero t i := by
  induction l generalizing t with
  | nil => rfl
  | cons a l ih =>
    rw [List.nodup_cons] at hl
    have hcons : Tab.advanceAt (a :: l) t = Tab.advanceAt l (Tab.write .zero t a (Tab.read .zero t a).advance) := rfl
    rw [hcons, ih hl.2, Tab.read_write]
    by_cases hi : i = a
    · subst hi; simp [hl.1]
    · simp [hi]

/-- An advance at one place leaves what expires at the others. -/
theorem Tab.expiring_write {l : List Nat} {a : Nat} (ha : a ∉ l) (t : Tab Timer) (v : Timer) :
    Tab.expiring l (Tab.write .zero t a v) = Tab.expiring l t := by
  refine List.filter_congr fun i hi => ?_
  have hne : i ≠ a := by rintro rfl; exact ha hi
  rw [Tab.read_write, if_neg hne]

theorem Tab.expiring_cons (a : Nat) (l : List Nat) (t : Tab Timer) :
    Tab.expiring (a :: l) t = (if (Tab.read .zero t a).expires then [a] else []) ++ Tab.expiring l t := by
  rw [Tab.expiring, List.filter_cons]
  split <;> rfl

namespace State

/-! ### The timers of one tick -/

theorem advanceRelease_eq (s : State) (z : Nat) : s.advanceRelease z =
    { s with
      tmb := { s.tmb with release := Tab.write .zero s.tmb.release z (s.releaseTimer z).advance }
      handed := s.handed ++ (if (s.releaseTimer z).expires then [z] else []).map Instr.releaseTimerExpiry } := by
  unfold advanceRelease
  cases hexp : (s.releaseTimer z).expires <;> simp [setReleaseTimer, hand, hexp]

theorem advanceStep_eq (s : State) (h : Nat) : s.advanceStep h =
    { s with
      tmb := { s.tmb with step := Tab.write .zero s.tmb.step h (s.stepTimer h).advance }
      handed := s.handed ++ (if (s.stepTimer h).expires then [h] else []).map Instr.stepTimerExpiry } := by
  unfold advanceStep
  cases hexp : (s.stepTimer h).expires <;> simp [setStepTimer, hand, hexp]

theorem advanceDwell_eq (s : State) (h : Nat) : s.advanceDwell h =
    { s with
      tmb := { s.tmb with dwell := Tab.write .zero s.tmb.dwell h (s.dwellTimer h).advance }
      handed := s.handed ++ (if (s.dwellTimer h).expires then [h] else []).map Instr.dwellTimerExpiry } := by
  unfold advanceDwell
  cases hexp : (s.dwellTimer h).expires <;> simp [setDwellTimer, hand, hexp]

theorem advanceSupervision_eq (s : State) : s.advanceSupervision =
    { s with
      tmb := { s.tmb with supervision := s.tmb.supervision.advance }
      handed := s.handed ++ if s.tmb.supervision.expires then [Instr.supervisionTimerExpiry] else [] } := by
  unfold advanceSupervision
  cases hexp : s.tmb.supervision.expires <;> simp [setSupervision, hand, hexp]

theorem advanceRetry_eq (s : State) : s.advanceRetry =
    { s with
      tmb := { s.tmb with retry := s.tmb.retry.advance }
      handed := s.handed
        ++ if s.tmb.retry.expires then [Instr.retryTimerExpiry s.tmb.retry.pending] else [] } := by
  unfold advanceRetry
  cases hexp : s.tmb.retry.expires <;> simp [setRetry, hand, hexp]

theorem foldl_advanceRelease {l : List Nat} (hl : l.Nodup) (s : State) : l.foldl advanceRelease s =
    { s with
      tmb := { s.tmb with release := Tab.advanceAt l s.tmb.release }
      handed := s.handed ++ (Tab.expiring l s.tmb.release).map Instr.releaseTimerExpiry } := by
  induction l generalizing s with
  | nil => simp [Tab.advanceAt, Tab.expiring]
  | cons a l ih =>
    rw [List.nodup_cons] at hl
    rw [List.foldl_cons, advanceRelease_eq, ih hl.2]
    simp only [Tab.expiring_write hl.1, Tab.expiring_cons, List.map_append, List.append_assoc]
    rfl

theorem foldl_advanceStep {l : List Nat} (hl : l.Nodup) (s : State) : l.foldl advanceStep s =
    { s with
      tmb := { s.tmb with step := Tab.advanceAt l s.tmb.step }
      handed := s.handed ++ (Tab.expiring l s.tmb.step).map Instr.stepTimerExpiry } := by
  induction l generalizing s with
  | nil => simp [Tab.advanceAt, Tab.expiring]
  | cons a l ih =>
    rw [List.nodup_cons] at hl
    rw [List.foldl_cons, advanceStep_eq, ih hl.2]
    simp only [Tab.expiring_write hl.1, Tab.expiring_cons, List.map_append, List.append_assoc]
    rfl

theorem foldl_advanceDwell {l : List Nat} (hl : l.Nodup) (s : State) : l.foldl advanceDwell s =
    { s with
      tmb := { s.tmb with dwell := Tab.advanceAt l s.tmb.dwell }
      handed := s.handed ++ (Tab.expiring l s.tmb.dwell).map Instr.dwellTimerExpiry } := by
  induction l generalizing s with
  | nil => simp [Tab.advanceAt, Tab.expiring]
  | cons a l ih =>
    rw [List.nodup_cons] at hl
    rw [List.foldl_cons, advanceDwell_eq, ih hl.2]
    simp only [Tab.expiring_write hl.1, Tab.expiring_cons, List.map_append, List.append_assoc]
    rfl

/-- One second: every timer measured in seconds is advanced, and its expiry handed on (R35, R41). -/
theorem advanceSeconds_eq (s : State) : s.advanceSeconds =
    { s with
      tmb := { s.tmb with
        release := Tab.advanceAt (List.range 16) s.tmb.release
        step := Tab.advanceAt (List.range 4) s.tmb.step
        dwell := Tab.advanceAt (List.range 4) s.tmb.dwell
        supervision := s.tmb.supervision.advance
        retry := s.tmb.retry.advance }
      handed := s.handed ++ (Tab.expiring (List.range 16) s.tmb.release).map Instr.releaseTimerExpiry
        ++ (Tab.expiring (List.range 4) s.tmb.step).map Instr.stepTimerExpiry
        ++ (Tab.expiring (List.range 4) s.tmb.dwell).map Instr.dwellTimerExpiry
        ++ (if s.tmb.supervision.expires then [Instr.supervisionTimerExpiry] else [])
        ++ (if s.tmb.retry.expires then [Instr.retryTimerExpiry s.tmb.retry.pending] else []) } := by
  unfold advanceSeconds
  simp only [foldl_advanceRelease List.nodup_range, foldl_advanceStep List.nodup_range,
    foldl_advanceDwell List.nodup_range, zoneNumbers, advanceSupervision_eq, advanceRetry_eq]
  rfl

/-- What one second leaves, with the three tables described by what is read in them. -/
theorem advanceSeconds_reads (s : State) : ∃ release step dwell : Tab Timer,
    (∀ z, Tab.read .zero release z = if z < 16 then (s.releaseTimer z).advance else s.releaseTimer z)
    ∧ (∀ h, Tab.read .zero step h = if h < 4 then (s.stepTimer h).advance else s.stepTimer h)
    ∧ (∀ h, Tab.read .zero dwell h = if h < 4 then (s.dwellTimer h).advance else s.dwellTimer h)
    ∧ s.advanceSeconds = { s with
        tmb := { s.tmb with
          release, step, dwell, supervision := s.tmb.supervision.advance, retry := s.tmb.retry.advance }
        handed := s.handed ++ ((List.range 16).filter (fun z => (s.releaseTimer z).expires)).map Instr.releaseTimerExpiry
          ++ ((List.range 4).filter (fun h => (s.stepTimer h).expires)).map Instr.stepTimerExpiry
          ++ ((List.range 4).filter (fun h => (s.dwellTimer h).expires)).map Instr.dwellTimerExpiry
          ++ (if s.tmb.supervision.expires then [Instr.supervisionTimerExpiry] else [])
          ++ (if s.tmb.retry.expires then [Instr.retryTimerExpiry s.tmb.retry.pending] else []) } := by
  have hread : ∀ (n i : Nat) (t : Tab Timer), Tab.read .zero (Tab.advanceAt (List.range n) t) i
      = if i < n then (Tab.read .zero t i).advance else Tab.read .zero t i := fun n i t => by
    simp only [Tab.read_advanceAt List.nodup_range, List.mem_range]
  exact ⟨_, _, _, fun z => hread 16 z _, fun h => hread 4 h _, fun h => hread 4 h _, advanceSeconds_eq s⟩

theorem advanceSeconds_passed (s : State) (count : Nat) :
    SecondPassed s (s.setSecondCount count).advanceSeconds count s.tmb.minuteClock := by
  obtain ⟨release, step, dwell, hrelease, hstep, hdwell, hs⟩ := advanceSeconds_reads (s.setSecondCount count)
  rw [hs]
  exact ⟨rfl, rfl, hrelease, hstep, hdwell, rfl, rfl, rfl, rfl, rfl, rfl, rfl, rfl, rfl, rfl, rfl, rfl, rfl, rfl⟩

/-- The minute clock is the only field of a passed second that the minute tick sets. -/
theorem secondPassed_setMinuteClock {s u : State} {count : Nat} {clock : Minute} (h : SecondPassed s u count clock)
    (m : Minute) : SecondPassed s { u with tmb := { u.tmb with minuteClock := m } } count m :=
  { h with minuteClock := rfl }

theorem active_setMinuteClock (u : State) (m : Minute) :
    ({ u with tmb := { u.tmb with minuteClock := m } } : State).active = u.active := rfl

theorem mga_advanceSeconds (s : State) : s.advanceSeconds.mga = s.mga := by
  obtain ⟨_, _, _, _, _, _, hs⟩ := advanceSeconds_reads s
  rw [hs]

/-! ### The minute tick -/

section
variable {s : State}

theorem climateMinute_config (h : s.active = false) : s.climateMinute = s := if_neg (by simp [h])
theorem custodyMinute_config (h : s.active = false) : s.custodyMinute = s := if_neg (by simp [h])
theorem handoverMinute_config (h : s.active = false) : s.handoverMinute = s := if_neg (by simp [h])

theorem minuteOwners_config (h : s.active = false) (order : OwnerOrder) : s.minuteOwners order = s := by
  cases order <;> simp only [minuteOwners, climateMinute_config h, custodyMinute_config h, handoverMinute_config h]

theorem secondTick_below (order : OwnerOrder) (h : s.tmb.secondCount < 59) :
    s.secondTick order = (s.setSecondCount (s.tmb.secondCount + 1)).advanceSeconds := if_pos (by omega)

theorem secondTick_wraps (order : OwnerOrder) (h : s.tmb.secondCount = 59) :
    s.secondTick order = (s.setSecondCount 0).advanceSeconds.minuteTick order := if_neg (by omega)

end
end State
end Sys2Proof.Machine

namespace Sys2Proof.Proofs
open Sys2Proof.Machine Sys2Proof.Machine.State

/-- Settles O19: the timers of the tick (`advanceSeconds_passed`), then at the 60th the clock and the owners. -/
theorem secondAndMinuteTicks : Obligations.SecondAndMinuteTicks := by
  refine ⟨fun s order hbelow => ⟨_, congrArg Host.Outcome.next (secondTick_below order hbelow),
      advanceSeconds_passed s _⟩,
    fun s => ⟨fun hlast => ⟨_, secondPassed_setMinuteClock (advanceSeconds_passed s 0) (s.tmb.minuteClock + 1), ?minute⟩,
      fun hbelow order => congrArg Host.Outcome.next (if_pos (by omega))⟩⟩
  case minute =>
    have htick : ∀ order, exec (.minuteTick order) s = exec (.secondTick order) s := fun order =>
      congrArg Host.Outcome.next (if_neg (by omega))
    have hsecond : ∀ order, exec (.secondTick order) s
        = .next (minuteOwners { (s.setSecondCount 0).advanceSeconds with
            tmb := { (s.setSecondCount 0).advanceSeconds.tmb with minuteClock := s.tmb.minuteClock + 1 } } order) := by
      intro order
      refine congrArg Host.Outcome.next ((secondTick_wraps order hlast).trans ?_)
      rw [minuteTick, (advanceSeconds_passed s 0).minuteClock]
    refine ⟨htick, fun hconfig order => ?_, (htick _).trans (hsecond _), (htick _).trans (hsecond _)⟩
    have hactive : (s.setSecondCount 0).advanceSeconds.active = s.active := active_of_mga (mga_advanceSeconds _)
    rw [htick, hsecond, minuteOwners_config]
    rw [active_setMinuteClock, hactive, hconfig]

end Sys2Proof.Proofs
end

section
/-! The report of an evaluation and ZONE PROFILE (R62 to R64, R68). -/
namespace Sys2Proof.Machine

theorem length_encPresence {width : Nat} {o : Option (List Byte)} (h : ∀ b ∈ o, b.length = width) :
    (encPresence width o).length = width + 1 := by
  cases o with
  | none => exact congrArg (· + 1) (List.length_replicate ..)
  | some b => exact congrArg (· + 1) (h b rfl)

/-- Every ZONE notice is 24 bytes (11.5). -/
theorem ZoneNoticeFields.length_payload (n : ZoneNoticeFields) : n.payload.length = 24 := by
  have hcause : ∀ b ∈ n.cause.map (fun c => enc1 c.code), b.length = 1 := by
    rintro b hb
    obtain ⟨c, -, rfl⟩ := Option.map_eq_some_iff.mp hb
    rfl
  have hreading : ∀ b ∈ n.reading.map (fun r => enc2 r.rh ++ encSigned2 r.t ++ encSigned2 r.td), b.length = 6 := by
    rintro b hb
    obtain ⟨r, -, rfl⟩ := Option.map_eq_some_iff.mp hb
    rfl
  simp only [payload, List.length_append, length_encPresence hcause, length_encPresence hreading]
  rfl

namespace State

/-! ### What an evaluation reports -/

theorem climateNotice_of_reading {s : State} {z : Nat} {before : ClimateState} {r : Reading}
    (h : (s.climate z).reading = some r) : s.climateNotice z before
      = [1, byteOf z, 0, byteOf before.code, byteOf (s.climate z).state.code, byteOf (s.climate z).state.code,
          byteOf (s.fireState z).code, 0, 0, 0, 0, if (s.fire z).silenced then 1 else 0, 0]
        ++ ([1] ++ enc2 r.rh ++ encSigned2 r.t ++ encSigned2 r.td)
        ++ [byteOf (s.climate z).validCount, byteOf ((s.climate z).exposure / 256), byteOf (s.climate z).exposure,
          if (s.climate z).exposed then 1 else 0] := by
  simp only [climateNotice, ZoneNoticeFields.payload, h]
  rfl

theorem climateNotice_of_no_reading {s : State} {z : Nat} {before : ClimateState}
    (h : (s.climate z).reading = none) : s.climateNotice z before
      = [1, byteOf z, 0, byteOf before.code, byteOf (s.climate z).state.code, byteOf (s.climate z).state.code,
          byteOf (s.fireState z).code, 0, 0, 0, 0, if (s.fire z).silenced then 1 else 0, 0]
        ++ List.replicate 7 0
        ++ [byteOf (s.climate z).validCount, byteOf ((s.climate z).exposure / 256), byteOf (s.climate z).exposure,
          if (s.climate z).exposed then 1 else 0] := by
  simp only [climateNotice, ZoneNoticeFields.payload, h]
  rfl

theorem lowerClimate_eq (s : State) (z : Nat) (st : ClimateState) :
    s.lowerClimate z st = st.alertKind.elim s (fun k => s.lower k z) := by
  cases st <;> rfl

theorem raiseClimate_eq (s : State) (z : Nat) (st : ClimateState) : s.raiseClimate z st
    = if st = .noData ∧ s.probesOf z = [] then s else st.alertKind.elim s (fun k => s.raiseCondition k z) := by
  cases st with
  | noData => simp only [raiseClimate, true_and]; rfl
  | normal | warning | excursion | critical => exact (if_neg fun h => nomatch h.1).symm

theorem lowerClimate_reported (s : State) (z : Nat) (st : ClimateState) : Reported s (s.lowerClimate z st) := by
  rw [lowerClimate_eq]
  cases st.alertKind with
  | none => exact Reported.rfl' s
  | some k => exact lower_reported s k z

theorem raiseClimate_reported (s : State) (z : Nat) (st : ClimateState) : Reported s (s.raiseClimate z st) := by
  rw [raiseClimate_eq]
  split
  · exact Reported.rfl' s
  · cases st.alertKind with
    | none => exact Reported.rfl' s
    | some k => exact raiseCondition_reported s k z

/-- The reports of a change of climate state leave what every report leaves. -/
theorem reportClimate_reported (s : State) (z : Nat) (before after : ClimateState) :
    Reported s (s.reportClimate z before after) := by
  unfold reportClimate
  split
  · exact Reported.rfl' s
  · exact ((offerNotice_reported s _).trans (lowerClimate_reported _ _ _)).trans (raiseClimate_reported _ _ _)

/-- The reports of a change, written out: neither the notice nor the lowering moves the station table. -/
theorem reportClimate_eq (s : State) (z : Nat) (before after : ClimateState) : s.reportClimate z before after
    = if before = after then s else
        let lowered := before.alertKind.elim (s.offerNotice (s.climateNotice z before))
          (fun k => (s.offerNotice (s.climateNotice z before)).lower k z)
        if after = .noData ∧ s.probesOf z = [] then lowered
        else after.alertKind.elim lowered (fun k => lowered.raiseCondition k z) := by
  have hprobes := probesOf_of_cgt
    ((offerNotice_reported s (s.climateNotice z before)).trans (lowerClimate_reported _ z before)).cgt z
  rw [lowerClimate_eq] at hprobes
  simp only [reportClimate, raiseClimate_eq, lowerClimate_eq, hprobes]

/-! ### ZONE PROFILE -/

theorem exec_zoneProfile {s : State} (hready : s.ready) (tag : Byte) (z profile : Nat) :
    exec (.zoneProfile tag z profile) s
      = .next ((s.requested (.zoneProfile tag z profile)).zoneProfileRequest tag z profile) :=
  congrArg Host.Outcome.next (serve_eq hready _ _ _ _)

section
variable (s : State) (tag : Byte) {z profile : Nat}

theorem zoneProfileRequest_outOfRange (h : 15 < z ∨ 3 < profile) :
    s.zoneProfileRequest tag z profile = s.reply 0x10 tag .range [] := if_pos h

theorem zoneProfileRequest_config (hz : z ≤ 15) (hp : profile ≤ 3) (h : s.active = false) :
    s.zoneProfileRequest tag z profile = s.replyRefused 0x10 tag .notActive [] :=
  (if_neg (by omega)).trans (if_neg (by simp [h]))

theorem zoneProfileRequest_active (hz : z ≤ 15) (hp : profile ≤ 3) (h : s.active = true) :
    let s1 := s.setZone z { s.zone z with profile := profile }
    let s2 := s1.setClimate z { s1.climate z with candidate := 0 }
    let s3 := s2.evaluateClimate z
    s.zoneProfileRequest tag z profile
      = s3.reply 0x10 tag .done [byteOf (s.climate z).state.code, byteOf (s3.climate z).state.code] :=
  (if_neg (by omega)).trans (if_pos h)

end
end State
end Sys2Proof.Machine

namespace Sys2Proof.Proofs
open Sys2Proof.Machine Sys2Proof.Machine.State

/-- Settles O23: the bytes by whether there is a reading, the order of the reports by `reportClimate_eq`. -/
theorem evaluationReportsInOrder : Obligations.EvaluationReportsInOrder := by
  refine ⟨rfl, rfl, rfl, rfl, rfl, fun s z before => ⟨?bytes, ZoneNoticeFields.length_payload _⟩, fun s z => ?order⟩
  case bytes =>
    cases h : (s.climate z).reading with
    | none => exact climateNotice_of_no_reading h
    | some r => exact climateNotice_of_reading h
  case order =>
    intro c c' s1 lowered raised s2 s3
    have hs2 : s1.reportClimate z c.state c'.state = s2 := reportClimate_eq s1 z c.state c'.state
    have hs3 : (s1.reportClimate z c.state c'.state).hand (.zoneReport z .evaluated) = s3 := by rw [hs2]; rfl
    have hmga : s3.mga = s.mga := by
      rw [← hs3]
      exact (reportClimate_reported s1 z c.state c'.state).mga
    calc s.evaluateClimate z
        = (let u := (s1.reportClimate z c.state c'.state).hand (.zoneReport z .evaluated)
          if u.mga.partState = .autonomous then u.computeFallback z else u) := rfl
      _ = if s.mga.partState = .autonomous then s3.computeFallback z else s3 := by
        simp only [hs3, hmga]

/-- Settles O25, in the order of the request's tests; taking the request moves nothing it reads. -/
theorem zoneProfileEvaluatesTheZone : Obligations.ZoneProfileEvaluatesTheZone := by
  intro s tag z profile hready s0
  obtain ⟨hactive, -, -, hclimate, -⟩ := requested_accessors s (.zoneProfile tag z profile)
  rw [exec_zoneProfile hready]
  refine ⟨fun hz hp h => ?done, fun hz hp h => congrArg Host.Outcome.next ?refused,
    fun h => congrArg Host.Outcome.next (zoneProfileRequest_outOfRange s0 tag h)⟩
  case refused => exact zoneProfileRequest_config s0 tag hz hp (hactive.trans h)
  case done =>
    intro s1 s2 s3
    have hbefore : s0.climate z = s.climate z := congrFun hclimate z
    rw [zoneProfileRequest_active s0 tag hz hp (hactive.trans h), hbefore]

end Sys2Proof.Proofs
end

section
/-! Exposure at the minute tick (R65, R66). -/
namespace Sys2Proof.Machine

/-- The exposure a record has after a minute, where the minute counts for it (R65). -/
def ClimateRec.minuteSum (p : Profile) (c : ClimateRec) : Option Nat :=
  if c.state = .excursion ∨ c.state = .critical then
    c.reading.map (fun r => min 65535 (c.exposure + humidityExcess p r.rh))
  else none

/-- The record after a minute, with the mark that the test for EXPOSED sets (R66). -/
def ClimateRec.afterMinute (p : Profile) (limit : Nat) (c : ClimateRec) : ClimateRec :=
  (c.minuteSum p).elim c (fun sum =>
    { c with exposure := sum, exposed := c.exposed || (decide (limit ≠ 0) && decide (limit ≤ sum)) })

/-- The minute marks the record EXPOSED. -/
def ClimateRec.NewlyExposed (p : Profile) (limit : Nat) (c : ClimateRec) : Prop :=
  ∃ sum ∈ c.minuteSum p, c.exposed = false ∧ limit ≠ 0 ∧ limit ≤ sum

section
variable {p : Profile} {limit : Nat} {c : ClimateRec}

theorem ClimateRec.minuteSum_counts {r : Reading} (h : c.state = .excursion ∨ c.state = .critical)
    (hr : c.reading = some r) : c.minuteSum p = some (min 65535 (c.exposure + humidityExcess p r.rh)) := by
  rw [minuteSum, if_pos h, hr, Option.map_some]

theorem ClimateRec.minuteSum_rests (h : c.state ≠ .excursion) (h' : c.state ≠ .critical) : c.minuteSum p = none :=
  if_neg fun hc => hc.elim h h'

theorem ClimateRec.minuteSum_eq_some {sum : Nat} (h : c.minuteSum p = some sum) :
    (c.state = .excursion ∨ c.state = .critical)
    ∧ ∃ r, c.reading = some r ∧ sum = min 65535 (c.exposure + humidityExcess p r.rh) := by
  unfold minuteSum at h
  split at h
  · rename_i hstate
    obtain ⟨r, hr, hsum⟩ := Option.map_eq_some_iff.mp h
    exact ⟨hstate, r, hr, hsum.symm⟩
  · exact nomatch h

theorem ClimateRec.afterMinute_some {sum : Nat} (h : c.minuteSum p = some sum) : c.afterMinute p limit
    = { c with exposure := sum, exposed := c.exposed || (decide (limit ≠ 0) && decide (limit ≤ sum)) } := by
  rw [afterMinute, h, Option.elim_some]

theorem ClimateRec.afterMinute_none (h : c.minuteSum p = none) : c.afterMinute p limit = c := by
  rw [afterMinute, h, Option.elim_none]

theorem ClimateRec.newlyExposed_some {sum : Nat} (h : c.minuteSum p = some sum) :
    c.NewlyExposed p limit ↔ c.exposed = false ∧ limit ≠ 0 ∧ limit ≤ sum := by
  simp [NewlyExposed, h]

theorem ClimateRec.newlyExposed_none (h : c.minuteSum p = none) : ¬ c.NewlyExposed p limit := by
  simp [NewlyExposed, h]

end

theorem Reported.setCls {s t : State} (h : Reported s t) (c : Cls) :
    Reported { s with cls := c } { t with cls := c } := { h with cls := rfl }

/-- Of everything that a report leaves, the climate records alone may differ. -/
def ClimateReported (s t : State) : Prop :=
  ∃ cls, Reported { s with cls := cls } t ∧ cls.probes = s.cls.probes ∧ cls.profiles = s.cls.profiles
    ∧ cls.zones = s.cls.zones ∧ cls.probeState = s.cls.probeState

section
variable {s t u : State}

theorem Reported.climateReported (h : Reported s t) : ClimateReported s t := ⟨s.cls, h, rfl, rfl, rfl, rfl⟩

theorem ClimateReported.rfl' (s : State) : ClimateReported s s := (Reported.rfl' s).climateReported

theorem ClimateReported.trans (a : ClimateReported s t) (b : ClimateReported t u) : ClimateReported s u := by
  obtain ⟨cls, ha, hprobes, hprofiles, hzones, hstates⟩ := a
  obtain ⟨cls', hb, hprobes', hprofiles', hzones', hstates'⟩ := b
  rw [ha.cls] at hprobes' hprofiles' hzones' hstates'
  exact ⟨cls', (ha.setCls cls').trans hb, hprobes'.trans hprobes, hprofiles'.trans hprofiles, hzones'.trans hzones,
    hstates'.trans hstates⟩

theorem climateReported_setClimate (s : State) (z : Nat) (c : ClimateRec) : ClimateReported s (s.setClimate z c) :=
  ⟨(s.setClimate z c).cls, Reported.rfl' _, rfl, rfl, rfl, rfl⟩

theorem ClimateReported.zone (h : ClimateReported s t) (z : Nat) : t.zone z = s.zone z := by
  obtain ⟨cls, hr, -, -, hzones, -⟩ := h
  simp only [State.zone, hr.cls, hzones]

theorem ClimateReported.profile (h : ClimateReported s t) (i : Nat) : t.profile i = s.profile i := by
  obtain ⟨cls, hr, -, hprofiles, -, -⟩ := h
  simp only [State.profile, hr.cls, hprofiles]

theorem climate_of_cls (h : t.cls = s.cls) (z : Nat) : t.climate z = s.climate z := by simp only [State.climate, h]

end

/-- The minute has been taken at the zones of `l`, and only there. -/
structure MinuteExposed (l : List Nat) (s t : State) : Prop where
  kept : ClimateReported s t
  climate : ∀ z, t.climate z = if z ∈ l then
    (s.climate z).afterMinute (s.profile (s.zone z).profile) (s.zone z).exposureLimit else s.climate z
  present : ∀ z, IsPresent t AlertKind.zoneExposed.code z ↔ IsPresent s AlertKind.zoneExposed.code z
    ∨ (z ∈ l ∧ (s.climate z).NewlyExposed (s.profile (s.zone z).profile) (s.zone z).exposureLimit)

namespace State

/-! ### One zone -/

section
variable {s : State} {z : Nat}

theorem testExposed_due (h : (s.zone z).exposureLimit ≠ 0) (h' : (s.zone z).exposureLimit ≤ (s.climate z).exposure)
    (h'' : (s.climate z).exposed = false) : s.testExposed z
      = (s.setClimate z { s.climate z with exposed := true }).raiseCondition .zoneExposed z := if_pos ⟨h, h', h''⟩

theorem testExposed_same (h : (s.zone z).exposureLimit = 0 ∨ (s.climate z).exposure < (s.zone z).exposureLimit
    ∨ (s.climate z).exposed = true) : s.testExposed z = s := by
  refine if_neg fun ⟨hlimit, hdue, hexposed⟩ => ?_
  rcases h with h | h | h
  · exact hlimit h
  · exact absurd hdue (by omega)
  · exact nomatch hexposed.symm.trans h

/-- The test leaves what a climate record's change and a report leave. -/
theorem testExposed_climateReported (s : State) (z : Nat) : ClimateReported s (s.testExposed z) := by
  unfold testExposed
  dsimp only
  split
  · exact (climateReported_setClimate s z _).trans (raiseCondition_reported _ _ _).climateReported
  · exact ClimateReported.rfl' s

theorem exposeZone_counts {sum : Nat} (h : (s.climate z).minuteSum (s.profile (s.zone z).profile) = some sum) :
    s.exposeZone z = (s.setClimate z { s.climate z with exposure := sum }).testExposed z := by
  obtain ⟨hstate, r, hr, rfl⟩ := ClimateRec.minuteSum_eq_some h
  unfold exposeZone
  rcases hstate with hstate | hstate <;> simp only [hstate, hr, zoneProfile, Nat.min_comm]

theorem exposeZone_rests (h : (s.climate z).minuteSum (s.profile (s.zone z).profile) = none) : s.exposeZone z = s := by
  unfold ClimateRec.minuteSum at h
  unfold exposeZone
  cases hst : (s.climate z).state <;> cases hr : (s.climate z).reading <;> simp_all

theorem alertRec_setClimate (s : State) (z : Nat) (c : ClimateRec) (j : Nat) :
    (s.setClimate z c).alertRec j = s.alertRec j := rfl

/-- A visited zone: `testExposed_spec` on the record with its new exposure. -/
theorem exposeZone_spec (s : State) (z : Nat) : MinuteExposed [z] s (s.exposeZone z) := by
  cases hsum : (s.climate z).minuteSum (s.profile (s.zone z).profile) with
  | none =>
    rw [exposeZone_rests hsum]
    refine ⟨ClimateReported.rfl' s, fun y => ?_, fun y => ⟨Or.inl, fun h => h.elim id fun ⟨hy, hnew⟩ => ?_⟩⟩
    · split
      · rename_i hy
        rw [List.mem_singleton.mp hy, ClimateRec.afterMinute_none hsum]
      · rfl
    · rw [List.mem_singleton.mp hy] at hnew
      exact absurd hnew (ClimateRec.newlyExposed_none hsum)
  | some sum =>
    rw [exposeZone_counts hsum]
    obtain ⟨-, -, hclimate, hpresent⟩ := testExposed_spec (s.setClimate z { s.climate z with exposure := sum }) z
    refine ⟨(climateReported_setClimate s z _).trans (testExposed_climateReported _ z), fun y => ?_, fun y => ?_⟩
    · obtain ⟨mark, hmark, hiff⟩ := hclimate y
      rw [hmark]
      by_cases hy : y = z
      · subst hy
        have hbit : mark = ((s.climate y).exposed || (decide ((s.zone y).exposureLimit ≠ 0)
            && decide ((s.zone y).exposureLimit ≤ sum))) := by
          rw [Bool.eq_iff_iff, hiff]
          simp [ExposureDue]
        simp [ClimateRec.afterMinute_some hsum, hbit]
      · have hkept : mark = (s.climate y).exposed := by
          rw [Bool.eq_iff_iff, hiff]
          simp [hy]
        simp [hy, hkept]
    · rw [hpresent]
      by_cases hy : y = z
      · subst hy
        simp [ClimateRec.newlyExposed_some hsum, ExposureDue, IsPresent, alertRec_setClimate]
      · simp [hy, IsPresent, alertRec_setClimate]

theorem minuteExposed_cons {l : List Nat} {s t u : State} {a : Nat} (ha : a ∉ l) (h : MinuteExposed [a] s t)
    (h' : MinuteExposed l t u) : MinuteExposed (a :: l) s u := by
  have hrule : ∀ z, t.profile (t.zone z).profile = s.profile (s.zone z).profile
      ∧ (t.zone z).exposureLimit = (s.zone z).exposureLimit := fun z => by
    rw [h.kept.profile, h.kept.zone]
    exact ⟨rfl, rfl⟩
  refine ⟨h.kept.trans h'.kept, fun z => ?_, fun z => ?_⟩
  · rw [h'.climate, h.climate, (hrule z).1, (hrule z).2]
    by_cases hz : z = a
    · subst hz; simp [ha]
    · simp [hz]
  · rw [h'.present, h.present, h.climate, (hrule z).1, (hrule z).2]
    by_cases hz : z = a
    · subst hz; simp [ha]
    · simp [hz]

theorem foldl_exposeZone_spec {l : List Nat} (hl : l.Nodup) (s : State) :
    MinuteExposed l s (l.foldl exposeZone s) := by
  induction l generalizing s with
  | nil => exact ⟨ClimateReported.rfl' s, fun z => (if_neg List.not_mem_nil).symm, fun z => by simp⟩
  | cons a l ih =>
    rw [List.nodup_cons] at hl
    exact minuteExposed_cons hl.1 (exposeZone_spec s a) (ih hl.2 _)

/-! ### The minute tick -/

theorem climateMinute_active {s : State} (h : s.active = true) : s.climateMinute = (List.range 16).foldl exposeZone s :=
  if_pos h

theorem climateMinute_spec {s : State} (h : s.active = true) : MinuteExposed (List.range 16) s s.climateMinute := by
  rw [climateMinute_active h]
  exact foldl_exposeZone_spec List.nodup_range s

end
end State
end Sys2Proof.Machine

namespace Sys2Proof.Proofs
open Sys2Proof.Machine Sys2Proof.Machine.State

/-- Settles O24: the tick is the visit of zones 0..15 (`climateMinute_spec`), each moving its own record only. -/
theorem exposureGrowsByTheExcess : Obligations.ExposureGrowsByTheExcess := by
  intro s
  refine ⟨fun z => ⟨testExposed_due, testExposed_same⟩, climateMinute_config, fun hactive => ?active⟩
  case active =>
    have hminute := climateMinute_spec hactive
    refine ⟨hminute.kept, fun z hz => ?inside, fun z hz => ?outside, climateMinute_active hactive⟩
    case outside =>
      rw [hminute.climate, if_neg (by simpa using hz)]
    case inside =>
      intro c p limit raised before
      have hmem : z ∈ List.range 16 := List.mem_range.mpr hz
      have hclimate := hminute.climate z
      have hpresent := hminute.present z
      rw [if_pos hmem] at hclimate
      refine ⟨fun r hstate hr => ?counts, fun hstate hstate' => ?rests⟩
      case counts =>
        intro sum
        have hsum : c.minuteSum p = some sum := ClimateRec.minuteSum_counts hstate hr
        refine ⟨exposeZone_counts hsum, hclimate.trans (ClimateRec.afterMinute_some hsum), hpresent.trans ?_⟩
        rw [ClimateRec.newlyExposed_some hsum, and_iff_right hmem]
      case rests =>
        have hnone : c.minuteSum p = none := ClimateRec.minuteSum_rests hstate hstate'
        refine ⟨exposeZone_rests hnone, hclimate.trans (ClimateRec.afterMinute_none hnone), hpresent.trans ?_⟩
        exact or_iff_left fun h => ClimateRec.newlyExposed_none hnone h.2

end Sys2Proof.Proofs
end

section
/-! The evaluation of a zone's fire state and the ZONE notice of a change (R79 to R85, R96). -/
namespace Sys2Proof.Machine

/-- Adding a bit that is clear sets it and carries nothing. -/
theorem testBit_add_two_pow {a z : Nat} (h : a.testBit z = false) (y : Nat) :
    (a + 2 ^ z).testBit y = (a.testBit y || decide (y = z)) := by
  induction z generalizing a y with
  | zero =>
    have heven : a % 2 = 0 := by simpa using h
    cases y with
    | zero =>
      have hodd : (a + 2 ^ 0) % 2 = 1 := by omega
      rw [Nat.testBit_zero, hodd, decide_eq_true rfl, decide_eq_true rfl, Bool.or_true]
    | succ y =>
      have hhalf : (a + 2 ^ 0) / 2 = a / 2 := by omega
      rw [Nat.testBit_succ, Nat.testBit_succ, hhalf, decide_eq_false (Nat.succ_ne_zero y), Bool.or_false]
  | succ z ih =>
    rw [Nat.testBit_succ] at h
    cases y with
    | zero =>
      have hparity : (a + 2 ^ (z + 1)) % 2 = a % 2 := by omega
      rw [Nat.testBit_zero, Nat.testBit_zero, hparity, decide_eq_false (Nat.succ_ne_zero z).symm, Bool.or_false]
    | succ y =>
      have hhalf : (a + 2 ^ (z + 1)) / 2 = a / 2 + 2 ^ z := by omega
      rw [Nat.testBit_succ, Nat.testBit_succ, hhalf, ih h, decide_eq_decide.mpr Nat.add_right_cancel_iff]

theorem testBit_foldl_add_two_pow {l : List Nat} (hl : l.Nodup) {a : Nat} (ha : ∀ z ∈ l, a.testBit z = false) (y : Nat) :
    (l.foldl (fun n z => n + 2 ^ z) a).testBit y = (a.testBit y || decide (y ∈ l)) := by
  induction l generalizing a with
  | nil => simp
  | cons z l ih =>
    obtain ⟨hz, hl⟩ := List.nodup_cons.mp hl
    have hset := testBit_add_two_pow (ha z List.mem_cons_self)
    have hclear : ∀ k ∈ l, (a + 2 ^ z).testBit k = false := fun k hk => by
      have hne : k ≠ z := fun h => hz (h ▸ hk)
      rw [hset, ha k (List.mem_cons_of_mem z hk), decide_eq_false hne, Bool.or_self]
    rw [List.foldl_cons, ih hl hclear, hset, Bool.or_assoc, ← Bool.decide_or]
    simp only [List.mem_cons]

/-- The number in which a zone set is sent has the bits of its zones. -/
theorem encZoneSet_bits {zones : List Nat} (h : zones.Nodup) :
    ∃ n : Nat, encZoneSet zones = enc2 n ∧ ∀ y, n.testBit y = decide (y ∈ zones) := by
  refine ⟨_, rfl, fun y => ?_⟩
  rw [testBit_foldl_add_two_pow h fun z _ => Nat.zero_testBit z, Nat.zero_testBit, Bool.false_or]

theorem length_encZoneSet (zones : List Nat) : (encZoneSet zones).length = 2 := rfl

namespace State

/-! ### What an evaluation finds -/

section
variable {s : State} {z : Nat}

/-- Enough SMOKE inputs at LOW or HIGH for COINCIDENCE (R80). -/
def coincident (s : State) (z : Nat) : Prop :=
  2 ≤ (s.zone z).coincidence ∧ (s.zone z).coincidence
    ≤ ((s.inputsOf z (fun j => j = .smoke)).filter
      (fun e => s.inputStage e.index = .low || s.inputStage e.index = .high)).length

theorem alarmCause_heat (h : s.anyHigh z .heat = true) : s.alarmCause z = some .heat := if_pos h

theorem alarmCause_callPoint (h : s.anyHigh z .heat = false) (h' : s.anyHigh z .callPoint = true) :
    s.alarmCause z = some .callPoint := (if_neg (by simp [h])).trans (if_pos h')

/-- Neither HEAT nor CALL_POINT is HIGH: the SMOKE inputs decide. -/
theorem alarmCause_smoke (h : s.anyHigh z .heat = false) (h' : s.anyHigh z .callPoint = false) :
    (s.coincident z → s.alarmCause z = some .coincidence)
    ∧ (¬ s.coincident z → s.anyHigh z .smoke = true → s.alarmCause z = some .single)
    ∧ (¬ s.coincident z → s.anyHigh z .smoke = false → s.alarmCause z = none) := by
  have hcount : ((s.stagesOf z (fun k => decide (k = .smoke))).filter (fun g => decide (g = .low ∨ g = .high))).length
      = ((s.inputsOf z (fun j => j = .smoke)).filter
        (fun e => s.inputStage e.index = .low || s.inputStage e.index = .high)).length := by
    rw [stagesOf, List.filter_map, List.length_map]
    simp only [Function.comp_def, Bool.decide_or]
  unfold alarmCause coincident
  rw [← hcount, if_neg (by simp [h]), if_neg (by simp [h'])]
  exact ⟨fun hc => if_pos hc, fun hc hs => (if_neg hc).trans (if_pos hs),
    fun hc hs => (if_neg hc).trans (if_neg (by simp [hs]))⟩

theorem preAlarmHolds_iff : s.preAlarmHolds z = true
    ↔ (∃ e ∈ s.inputsOf z (fun j => j = .smoke), s.inputStage e.index = .low) ∨ (s.fire z).coupledSources ≠ [] := by
  rw [← mem_stagesOf, preAlarmHolds]
  simp

/-! ### What it does -/

theorem evaluateFire_latched (h : (s.fireState z).latched = true) : s.evaluateFire z = s :=
  if_neg (by simp [belowAlarm, h])

theorem evaluateFire_alarm (h : (s.fireState z).latched = false) {cause : Cause} (hc : s.alarmCause z = some cause) :
    s.evaluateFire z = s.enterAlarm z cause := by
  unfold evaluateFire
  rw [if_pos (by simp [belowAlarm, h]), hc]

theorem evaluateFire_settles (h : (s.fireState z).latched = false) (hc : s.alarmCause z = none) :
    s.evaluateFire z = s.settleFire z := by
  unfold evaluateFire
  rw [if_pos (by simp [belowAlarm, h]), hc]

theorem settleFire_rises (h : s.fireState z = .quiet) (h' : s.preAlarmHolds z = true) :
    s.settleFire z = s.changeQuiet z .preAlarm := by
  unfold settleFire
  rw [h, h']

theorem settleFire_falls (h : s.fireState z = .preAlarm) (h' : s.preAlarmHolds z = false) :
    s.settleFire z = s.changeQuiet z .quiet := by
  unfold settleFire
  rw [h, h']

theorem settleFire_quiet (h : s.fireState z = .quiet) (h' : s.preAlarmHolds z = false) : s.settleFire z = s := by
  unfold settleFire
  rw [h, h']

theorem settleFire_preAlarm (h : s.fireState z = .preAlarm) (h' : s.preAlarmHolds z = true) : s.settleFire z = s := by
  unfold settleFire
  rw [h, h']

theorem exec_coupledZoneEvaluation (h : Instr.coupledZoneEvaluation z ∈ s.handed) :
    exec (.coupledZoneEvaluation z) s
      = .next (if s.active then (s.takeHanded (.coupledZoneEvaluation z)).evaluateFire z
          else s.takeHanded (.coupledZoneEvaluation z)) :=
  congrArg Host.Outcome.next (takeEvent_eq h _)

/-! ### Its ZONE notice -/

theorem fireNotice_eq (s : State) (z : Nat) (before : FireState) :
    let f := s.fire z
    let c := s.climate z
    s.fireNotice z before
      = [1, byteOf z, 1, byteOf before.code, byteOf f.state.code, byteOf c.state.code, byteOf f.state.code]
        ++ (match f.cause with
            | some k => [1, byteOf k.code]
            | none => [0, 0])
        ++ encZoneSet f.coupledSources ++ [if f.silenced then 1 else 0, if f.unmonitored then 1 else 0]
        ++ (match c.reading with
            | some r => [1] ++ enc2 r.rh ++ encSigned2 r.t ++ encSigned2 r.td
            | none => List.replicate 7 0)
        ++ [0, 0, 0, 0] := by
  intro f c
  have hcause : encPresence 1 (f.cause.map (fun k => enc1 k.code))
      = match f.cause with
        | some k => [1, byteOf k.code]
        | none => [0, 0] := by cases f.cause <;> rfl
  have hreading : encPresence 6 (c.reading.map (fun r => enc2 r.rh ++ encSigned2 r.t ++ encSigned2 r.td))
      = match c.reading with
        | some r => [1] ++ enc2 r.rh ++ encSigned2 r.t ++ encSigned2 r.td
        | none => List.replicate 7 0 := by cases c.reading <;> rfl
  unfold fireNotice ZoneNoticeFields.payload
  dsimp only
  rw [show encPresence 1 _ = _ from hcause, show encPresence 6 _ = _ from hreading]
  simp only [List.append_assoc]
  rfl

end
end State
end Sys2Proof.Machine

namespace Sys2Proof.Proofs
open Sys2Proof.Machine Sys2Proof.Machine.State

/-- Settles O28: what the evaluation finds (`alarmCause`, then `preAlarmHolds`) decides what it does. -/
theorem fireEvaluationDecides : Obligations.FireEvaluationDecides := by
  intro s z high smoky coincident early changed
  refine ⟨evaluateFire_latched, fun hlow => ?decides, exec_coupledZoneEvaluation,
    fun before => ⟨fireNotice_eq s z before, ZoneNoticeFields.length_payload _⟩, fun zones h => encZoneSet_bits h⟩
  case decides =>
    have hhigh : ∀ k, high k → s.anyHigh z k = true := fun k => (anyHigh_iff z k).mpr
    have hnot : ∀ k, ¬ high k → s.anyHigh z k = false := fun k h => by simpa using mt (anyHigh_iff z k).mp h
    have hearly : s.preAlarmHolds z = true ↔ early := preAlarmHolds_iff
    have hlate : ¬ early → s.preAlarmHolds z = false := fun h => by simpa using mt hearly.mp h
    refine ⟨fun h1 => evaluateFire_alarm hlow (alarmCause_heat (hhigh _ h1)),
      fun h1 h2 => evaluateFire_alarm hlow (alarmCause_callPoint (hnot _ h1) (hhigh _ h2)),
      fun h1 h2 h3 => evaluateFire_alarm hlow ((alarmCause_smoke (hnot _ h1) (hnot _ h2)).1 h3),
      fun h1 h2 h3 h4 => evaluateFire_alarm hlow ((alarmCause_smoke (hnot _ h1) (hnot _ h2)).2.1 h3 (hhigh _ h4)),
      fun h1 h2 h3 h4 => ?settles⟩
    have hset : s.evaluateFire z = s.settleFire z :=
      evaluateFire_settles hlow ((alarmCause_smoke (hnot _ h1) (hnot _ h2)).2.2 h3 (hnot _ h4))
    exact ⟨fun hs he => hset.trans (settleFire_rises hs (hearly.mpr he)),
      fun hs he => hset.trans (settleFire_falls hs (hlate he)),
      fun hs he => hset.trans (settleFire_quiet hs (hlate he)),
      fun hs he => hset.trans (settleFire_preAlarm hs (hearly.mpr he))⟩

end Sys2Proof.Proofs
end

section
/-! Entry to ALARM, RELEASE_COUNTDOWN and RELEASED (R83, R84, R86, R87, R90). -/
namespace Sys2Proof.Machine
namespace State

section
variable {s t : State} {z : Nat}

theorem inputsOf_of_same (hcgt : t.cgt = s.cgt) (hinputs : t.frs.inputs = s.frs.inputs) (k : InputKind → Bool) :
    t.inputsOf z k = s.inputsOf z k := by
  simp only [inputsOf, stationList, inputKind, hcgt, hinputs]

theorem stagesOf_of_same (hcgt : t.cgt = s.cgt) (hinputs : t.frs.inputs = s.frs.inputs)
    (hstages : t.frs.stages = s.frs.stages) (k : InputKind → Bool) : t.stagesOf z k = s.stagesOf z k := by
  simp only [stagesOf, inputsOf_of_same hcgt hinputs, inputStage, hstages]

/-- What decides on a countdown at the entry reads the zone table, the station table and the fire inputs only. -/
theorem countdownAtEntry_of_same (hzones : t.cls.zones = s.cls.zones) (hcgt : t.cgt = s.cgt)
    (hinputs : t.frs.inputs = s.frs.inputs) (hstages : t.frs.stages = s.frs.stages) (cause : Cause) :
    t.countdownAtEntry z cause = s.countdownAtEntry z cause := by
  simp only [countdownAtEntry, anyHigh, stagesOf_of_same hcgt hinputs hstages, zone, hzones]

theorem countdownAtEntry_iff (cause : Cause) : s.countdownAtEntry z cause = true ↔ (s.zone z).fitted = true
    ∧ (((s.zone z).autoRelease = true ∧ (cause = .heat ∨ cause = .coincidence))
      ∨ ∃ i ∈ s.inputsOf z (fun j => j = .releaseSwitch), s.inputStage i.index = .high) := by
  rw [countdownAtEntry, Bool.and_eq_true, Bool.or_eq_true, Bool.and_eq_true, decide_eq_true_eq, anyHigh_iff]

/-- The frames of a change of fire state leave what a frame for the field leaves. -/
theorem soundZone_sent (s : State) (z pattern : Nat) : Sent s (s.soundZone z pattern) := queueUrgentAll_sent _ _ _ _

theorem driveZone_sent (s : State) (z : Nat) (f : Function → Bool) (command : Nat) :
    Sent s (s.driveZone z f command) := queueUrgentAll_sent _ _ _ _

theorem soundZone_of_cgt {pattern : Nat} (h : t.cgt = s.cgt) :
    t.soundZone z pattern = t.queueUrgentAll (s.soundersOf z) 0x23 [byteOf pattern, 0] := by
  have hsounders : t.soundersOf z = s.soundersOf z := by
    simp only [soundersOf, actuatorsOf, stationList, actuator, h]
    rfl
  rw [soundZone, hsounders]
  rfl

theorem enterCountdown_eq (s : State) (z : Nat) :
    let a := s.setFire z { s.fire z with state := .releaseCountdown, silenced := false }
    let b := (a.setReleaseTimer z ((s.releaseTimer z).start (s.zone z).releaseDelay false true)).regateRelease z
    let c := (b.queueUrgentAll (b.actuatorsOf z (fun f => f = .damper)) 0x22 [2]
      ).queueUrgentAll (b.soundersOf z) 0x23 [2, 0]
    s.enterCountdown z = ((c.offerNotice (c.fireNotice z (s.fireState z))).raiseCondition .releaseCountdown z).hand
      (.zoneReport z (.fireChanged .releaseCountdown)) := by
  intro a b c
  have hframes : (b.driveZone z (fun f => decide (f = .damper)) Drive.close).soundZone z Sound.pulseFast = c :=
    soundZone_of_cgt (driveZone_sent _ _ _ _).cgt
  rw [← hframes]
  rfl

theorem regateRelease_cls (s : State) (z : Nat) : (s.regateRelease z).cls = s.cls := by
  unfold regateRelease
  split <;> rfl

theorem enterCountdown_cls (s : State) (z : Nat) : (s.enterCountdown z).cls = s.cls := by
  simp only [enterCountdown_eq, hand_fields, (raiseCondition_reported _ _ _).cls, (offerNotice_reported _ _).cls,
    (queueUrgentAll_sent _ _ _ _).cls, regateRelease_cls, setReleaseTimer_fields, setFire_fields]

/-- What follows the frames of an entry to ALARM: the notice, the alerts, the commands and the report (R83). -/
def alarmTold (b : State) (z : Nat) (before : FireState) : State :=
  let c := b.offerNotice (b.fireNotice z before)
  let d := if before = .preAlarm then c.lower .firePreAlarm z else c
  let e := d.raiseCondition .fireAlarm z
  (e.setClimate z { e.climate z with humidifier := false, dehumidifier := false }).hand
    (.zoneReport z (.fireChanged .alarm))

/-- What it leaves: all that a report leaves, but a climate record and what is handed on. -/
theorem alarmTold_kept (b : State) (z : Nat) (before : FireState) : (b.alarmTold z before).cgt = b.cgt
    ∧ (b.alarmTold z before).frs = b.frs ∧ (b.alarmTold z before).cls.zones = b.cls.zones := by
  have hlower : ∀ c : State, Reported c (if before = .preAlarm then c.lower .firePreAlarm z else c) := fun c => by
    split
    · exact lower_reported _ _ _
    · exact Reported.rfl' _
  have hall := ((offerNotice_reported b (b.fireNotice z before)).trans (hlower _)).trans
    (raiseCondition_reported _ .fireAlarm z)
  have hzones := congrArg Cls.zones hall.cls
  exact ⟨hall.cgt, hall.frs, hzones⟩

theorem enterAlarm_told (s : State) (z : Nat) (cause : Cause) {b : State}
    (hb : ((s.setFire z { s.fire z with state := .alarm, cause := some cause, silenced := false }).driveZone z
      (fun f => decide (f = .humidifier ∨ f = .dehumidifier)) Drive.off).soundZone z Sound.continuous = b) :
    let f := b.alarmTold z (s.fireState z)
    let g := if f.countdownAtEntry z cause then f.enterCountdown z else f
    s.enterAlarm z cause = (g.zone z).coupledList.foldl (coupleOne z) g := hb ▸ rfl

/-- An entry to ALARM with its decisions read off the state before it: no frame or report moves what they read. -/
theorem enterAlarm_eq (s : State) (z : Nat) (cause : Cause) :
    let a := s.setFire z { s.fire z with state := .alarm, cause := some cause, silenced := false }
    let b := (a.queueUrgentAll (a.actuatorsOf z (fun f => f = .humidifier || f = .dehumidifier)) 0x22 [0]
      ).queueUrgentAll (a.soundersOf z) 0x23 [3, 0]
    let f := b.alarmTold z (s.fireState z)
    let g := if s.countdownAtEntry z cause then f.enterCountdown z else f
    s.enterAlarm z cause = ((s.zone z).coupled.take (s.zone z).coupledCount).foldl (coupleOne z) g := by
  intro a b f g
  have hframes : (a.driveZone z (fun f => decide (f = .humidifier ∨ f = .dehumidifier)) Drive.off).soundZone z
      Sound.continuous = b := by
    rw [soundZone_of_cgt (driveZone_sent _ _ _ _).cgt]
    simp only [driveZone, Bool.decide_or]
    rfl
  have hba : Sent a b := (queueUrgentAll_sent _ _ _ _).trans (queueUrgentAll_sent _ _ _ _)
  obtain ⟨hcgt, hfrs, hzones⟩ := alarmTold_kept b z (s.fireState z)
  have hfzones : f.cls.zones = s.cls.zones := hzones.trans (congrArg Cls.zones hba.cls)
  have hinputs : f.frs.inputs = a.frs.inputs := congrArg Frs.inputs (hfrs.trans hba.frs)
  have hstages : f.frs.stages = a.frs.stages := congrArg Frs.stages (hfrs.trans hba.frs)
  have hdecide : f.countdownAtEntry z cause = s.countdownAtEntry z cause :=
    countdownAtEntry_of_same hfzones (hcgt.trans hba.cgt) hinputs hstages cause
  have hzone : g.zone z = s.zone z := by
    have hfzone : f.zone z = s.zone z := by simp only [zone, hfzones]
    unfold g
    split
    · exact (zone_of_cls (enterCountdown_cls f z) z).trans hfzone
    · exact hfzone
  calc s.enterAlarm z cause
      = (let g := if f.countdownAtEntry z cause then f.enterCountdown z else f
        (g.zone z).coupledList.foldl (coupleOne z) g) := enterAlarm_told s z cause hframes
    _ = (g.zone z).coupledList.foldl (coupleOne z) g := by rw [hdecide]
    _ = (s.zone z).coupledList.foldl (coupleOne z) g := by rw [hzone]

/-! ### RELEASED -/

theorem enterReleased_eq (s : State) (z : Nat) :
    let a := s.setFire z { s.fire z with state := .released, silenced := false }
    let b := (a.queueUrgentAll (a.actuatorsOf z (fun f => f = .suppression)) 0x25 [byteOf z]
      ).queueUrgentAll (a.soundersOf z) 0x23 [3, 0]
    let c := ((b.offerNotice (b.fireNotice z (s.fireState z))).lower .releaseCountdown z).raiseCondition .released z
    s.enterReleased z = (c.sweepZone z).hand (.zoneReport z (.fireChanged .released)) := by
  intro a b c
  have hframes : (a.queueUrgentAll (a.actuatorsOf z (fun f => f = .suppression)) Kind.release (enc1 z)).soundZone z
      Sound.continuous = b := soundZone_of_cgt (queueUrgentAll_sent _ _ _ _).cgt
  clear_value b
  subst hframes
  rfl

theorem exec_releaseTimerExpiry (h : Instr.releaseTimerExpiry z ∈ s.handed) :
    exec (.releaseTimerExpiry z) s = .next ((s.takeHanded (.releaseTimerExpiry z)).releaseExpired z) :=
  congrArg Host.Outcome.next (takeEvent_eq h _)

end
end State
end Sys2Proof.Machine

namespace Sys2Proof.Proofs
open Sys2Proof.Machine Sys2Proof.Machine.State

/-- Settles O29: the three entries by their equations, and an expiry by whether the zone is in RELEASE_COUNTDOWN. -/
theorem alarmCountdownAndRelease : Obligations.AlarmCountdownAndRelease := by
  refine ⟨fun s z => ⟨fun cause => ?alarm, enterCountdown_eq s z⟩, fun s z hhanded => ?expiry⟩
  case alarm =>
    intro a b c d e f counts g
    have hg : (if s.countdownAtEntry z cause then f.enterCountdown z else f) = g :=
      ite_congr (propext (countdownAtEntry_iff cause)) (fun _ => rfl) fun _ => rfl
    rw [← hg]
    exact enterAlarm_eq s z cause
  case expiry =>
    intro s0
    rw [exec_releaseTimerExpiry hhanded]
    refine ⟨fun h => congrArg Host.Outcome.next (if_neg h), fun h => ?released⟩
    case released =>
      intro s1 a b c
      refine congrArg Host.Outcome.next ((if_pos h).trans ?_)
      have hbefore : s1.fireState z = .releaseCountdown := h
      have hnotice := enterReleased_eq s1 z
      rw [hbefore] at hnotice
      exact hnotice

end Sys2Proof.Proofs
end

section
/-! ZONE SILENCE, ZONE RELEASE and ZONE FIRE RESET (R92, R94, R95). -/
namespace Sys2Proof.Machine

theorem InputKind.detects_eq : InputKind.detects = fun k => k = .smoke || k = .heat || k = .callPoint := by
  funext k
  cases k <;> rfl

namespace State

section
variable {s : State} {z : Nat} (tag : Byte)

/-! ### ZONE SILENCE -/

theorem zoneSilenceRequest_outOfRange (h : 15 < z) : s.zoneSilenceRequest tag z = s.reply 0x14 tag .range [] :=
  if_pos h

theorem zoneSilenceRequest_config (hz : z ≤ 15) (h : s.active = false) :
    s.zoneSilenceRequest tag z = s.replyRefused 0x14 tag .notActive [] :=
  (if_neg (by omega)).trans (if_pos (by simp [h]))

/-- The request in range and ACTIVE. -/
theorem zoneSilenceRequest_active (hz : z ≤ 15) (h : s.active = true) : s.zoneSilenceRequest tag z
    = if s.fireState z = .alarm ∨ s.fireState z = .released then
        ((s.setFire z { s.fire z with silenced := true }).queueUrgentAll (s.soundersOf z) 0x23 [0, 0]).reply
          0x14 tag .done [byteOf (s.fireState z).code]
      else s.replyRefused 0x14 tag .notSilenceable [] := by
  have hframes : (s.setFire z { s.fire z with silenced := true }).soundZone z Sound.off
      = (s.setFire z { s.fire z with silenced := true }).queueUrgentAll (s.soundersOf z) 0x23 [0, 0] :=
    soundZone_of_cgt rfl
  have hstate : ((s.setFire z { s.fire z with silenced := true }).queueUrgentAll (s.soundersOf z) 0x23 [0, 0]).fireState z
      = s.fireState z :=
    (fireState_of_frs (queueUrgentAll_sent _ _ _ _).frs z).trans (by simp [fireState])
  unfold zoneSilenceRequest
  rw [if_neg (by omega), if_neg (by simp [h]), hframes]
  dsimp only
  rw [hstate]
  cases hf : s.fireState z <;> simp <;> rfl

theorem exec_zoneSilence (hready : s.ready) : exec (.zoneSilence tag z) s
    = .next ((s.requested (.zoneSilence tag z)).zoneSilenceRequest tag z) :=
  congrArg Host.Outcome.next (serve_eq hready _ _ _ _)

/-! ### ZONE RELEASE -/

theorem zoneReleaseRequest_outOfRange (h : 15 < z) : s.zoneReleaseRequest tag z = s.reply 0x13 tag .range [] :=
  if_pos h

theorem zoneReleaseRequest_config (hz : z ≤ 15) (h : s.active = false) :
    s.zoneReleaseRequest tag z = s.replyRefused 0x13 tag .notActive [] :=
  (if_neg (by omega)).trans (if_pos (by simp [h]))

theorem zoneReleaseRequest_notFitted (hz : z ≤ 15) (h : s.active = true) (hfit : (s.zone z).fitted = false) :
    s.zoneReleaseRequest tag z = s.replyRefused 0x13 tag .notFitted [] :=
  (if_neg (by omega)).trans ((if_neg (by simp [h])).trans (if_pos (by simp [hfit])))

theorem zoneReleaseRequest_fitted (hz : z ≤ 15) (h : s.active = true) (hfit : (s.zone z).fitted = true) :
    (s.fireState z = .quiet ∨ s.fireState z = .preAlarm →
      s.zoneReleaseRequest tag z = s.replyRefused 0x13 tag .notInAlarm [])
    ∧ (s.fireState z = .releaseCountdown ∨ s.fireState z = .released →
      s.zoneReleaseRequest tag z = s.replyRefused 0x13 tag .alreadyReleasing [])
    ∧ (s.fireState z = .alarm → s.zoneReleaseRequest tag z = (s.enterCountdown z).reply 0x13 tag .done [3]) := by
  unfold zoneReleaseRequest
  rw [if_neg (by omega), if_neg (by simp [h]), if_neg (by simp [hfit])]
  refine ⟨?_, ?_, fun hf => by rw [hf]; rfl⟩ <;> rintro (hf | hf) <;> rw [hf] <;> rfl

theorem exec_zoneRelease (hready : s.ready) : exec (.zoneRelease tag z) s
    = .next ((s.requested (.zoneRelease tag z)).zoneReleaseRequest tag z) :=
  congrArg Host.Outcome.next (serve_eq hready _ _ _ _)

/-! ### ZONE FIRE RESET -/

theorem zoneFireResetRequest_outOfRange (h : 15 < z) : s.zoneFireResetRequest tag z = s.reply 0x12 tag .range [] :=
  if_pos h

theorem zoneFireResetRequest_config (hz : z ≤ 15) (h : s.active = false) :
    s.zoneFireResetRequest tag z = s.replyRefused 0x12 tag .notActive [] :=
  (if_neg (by omega)).trans (if_pos (by simp [h]))

theorem zoneFireResetRequest_notLatched (hz : z ≤ 15) (h : s.active = true) (hf : (s.fireState z).latched = false) :
    s.zoneFireResetRequest tag z = s.replyRefused 0x12 tag .notLatched [] :=
  (if_neg (by omega)).trans ((if_neg (by simp [h])).trans (if_pos (by simp [belowAlarm, hf])))

theorem zoneFireResetRequest_notClear (hz : z ≤ 15) (h : s.active = true) (hf : (s.fireState z).latched = true)
    {e : StationEntry} (he : s.firstNotClear z = some e) :
    s.zoneFireResetRequest tag z = s.replyRefused 0x12 tag .detectorsActive [byteOf e.addr] := by
  unfold zoneFireResetRequest
  rw [if_neg (by omega), if_neg (by simp [h]), if_neg (by simp [belowAlarm, hf]), he]
  rfl

theorem zoneFireResetRequest_clear (hz : z ≤ 15) (h : s.active = true) (hf : (s.fireState z).latched = true)
    (he : s.firstNotClear z = none) : s.zoneFireResetRequest tag z
      = (s.resetFire z).reply 0x12 tag .done [byteOf (s.fireState z).code, byteOf ((s.resetFire z).fireState z).code] := by
  unfold zoneFireResetRequest
  rw [if_neg (by omega), if_neg (by simp [h]), if_neg (by simp [belowAlarm, hf]), he]
  rfl

theorem exec_zoneFireReset (hready : s.ready) : exec (.zoneFireReset tag z) s
    = .next ((s.requested (.zoneFireReset tag z)).zoneFireResetRequest tag z) :=
  congrArg Host.Outcome.next (serve_eq hready _ _ _ _)

theorem firstNotClear_some {front back : List StationEntry} {e : StationEntry}
    (hlist : s.inputsOf z (fun k => k = .smoke || k = .heat || k = .callPoint) = front ++ e :: back)
    (hfront : ∀ i ∈ front, s.inputStage i.index = .clear) (he : s.inputStage e.index ≠ .clear) :
    s.firstNotClear z = some e := by
  rw [firstNotClear, InputKind.detects_eq, hlist, List.find?_append,
    List.find?_eq_none.mpr (fun i hi => by simp [hfront i hi]), Option.none_or, List.find?_cons_of_pos (by simp [he])]

theorem firstNotClear_none
    (h : ∀ i ∈ s.inputsOf z (fun k => k = .smoke || k = .heat || k = .callPoint), s.inputStage i.index = .clear) :
    s.firstNotClear z = none := by
  rw [firstNotClear, InputKind.detects_eq]
  exact List.find?_eq_none.mpr fun i hi => by simp [h i hi]

/-- With every detector CLEAR only a coupled source holds PRE_ALARM. -/
theorem preAlarmHolds_clear
    (h : ∀ i ∈ s.inputsOf z (fun k => k = .smoke || k = .heat || k = .callPoint), s.inputStage i.index = .clear) :
    s.preAlarmHolds z = true ↔ (s.fire z).coupledSources ≠ [] := by
  rw [preAlarmHolds_iff]
  refine or_iff_right ?_
  rintro ⟨e, he, hlow⟩
  refine nomatch (h e ?_).symm.trans hlow
  simp only [inputsOf, List.mem_map, List.mem_filter, Bool.and_eq_true, Bool.or_eq_true, decide_eq_true_eq] at he ⊢
  obtain ⟨p, ⟨hp, hkind, hsmoke⟩, rfl⟩ := he
  exact ⟨p, ⟨hp, hkind, .inl (.inl hsmoke)⟩, rfl⟩

theorem uncoupleOne_fireState (s : State) (z t y : Nat) : (uncoupleOne z s t).fireState y = s.fireState y := by
  unfold uncoupleOne
  split
  · simp only [fireState]
    refine (congrArg FireRec.state (fire_setFire _ _ _ _)).trans ?_
    split
    · rename_i hy; rw [hy]
    · rfl
  · rfl

theorem foldl_uncoupleOne_fireState (z y : Nat) (l : List Nat) (s : State) :
    (l.foldl (uncoupleOne z) s).fireState y = s.fireState y := by
  induction l generalizing s with
  | nil => rfl
  | cons t l ih => exact (ih _).trans (uncoupleOne_fireState s z t y)

/-- The state that a reset leaves the zone in: a coupled source holds it at PRE_ALARM. -/
def stateAfterReset (s : State) (z : Nat) : FireState := if (s.fire z).coupledSources = [] then .quiet else .preAlarm

/-- What follows the frames of a reset: the notice, the alerts and the report (R95). -/
def resetTold (b : State) (z : Nat) (before new : FireState) : State :=
  let c := b.offerNotice (b.fireNotice z before)
  let d := ((c.lower .fireAlarm z).lower .releaseCountdown z).lower .released z
  (if new = .preAlarm then d.raiseCondition .firePreAlarm z else d).hand (.zoneReport z (.fireChanged new))

theorem resetTold_kept (b : State) (z : Nat) (before new : FireState) :
    (b.resetTold z before new).cls = b.cls ∧ (b.resetTold z before new).frs = b.frs := by
  have hlowers : ∀ c : State, Reported c (((c.lower .fireAlarm z).lower .releaseCountdown z).lower .released z) :=
    fun c => ((lower_reported _ _ _).trans (lower_reported _ _ _)).trans (lower_reported _ _ _)
  have hraise : ∀ d : State, Reported d (if new = .preAlarm then d.raiseCondition .firePreAlarm z else d) := fun d => by
    split
    · exact raiseCondition_reported _ _ _
    · exact Reported.rfl' _
  have hall := ((offerNotice_reported b (b.fireNotice z before)).trans (hlowers _)).trans (hraise _)
  exact ⟨hall.cls, hall.frs⟩

/-- A reset with every detector CLEAR: its effects, and the state it leaves the zone in. -/
theorem resetFire_eq (hclear : s.preAlarmHolds z = true ↔ (s.fire z).coupledSources ≠ []) :
    let a := if s.fireState z = .releaseCountdown then
        s.setReleaseTimer z { s.releaseTimer z with running := false, remaining := 0, pending := false, gated := false }
      else s
    let b := (a.setFire z { s.fire z with state := s.stateAfterReset z, cause := none, silenced := false }).queueUrgentAll
      (a.soundersOf z) 0x23 [if s.stateAfterReset z = .quiet then 0 else 1, 0]
    s.resetFire z = ((s.zone z).coupled.take (s.zone z).coupledCount).foldl (uncoupleOne z)
        (b.resetTold z (s.fireState z) (s.stateAfterReset z))
      ∧ (s.resetFire z).fireState z = s.stateAfterReset z := by
  intro a b
  have ha : a.cls = s.cls ∧ a.frs = s.frs ∧ a.cgt = s.cgt := by
    unfold a
    split <;> exact ⟨rfl, rfl, rfl⟩
  obtain ⟨hcls, hfrs, hcgt⟩ := ha
  have hfire : a.fire z = s.fire z := by simp only [fire, hfrs]
  have hnew : (if a.preAlarmHolds z then FireState.preAlarm else .quiet) = s.stateAfterReset z := by
    have hsame : a.preAlarmHolds z = s.preAlarmHolds z := by
      simp only [preAlarmHolds, hfire, stagesOf_of_same hcgt (congrArg Frs.inputs hfrs) (congrArg Frs.stages hfrs)]
    simp only [hsame, hclear, stateAfterReset, ite_not]
  have hframes : (a.setFire z { s.fire z with state := s.stateAfterReset z, cause := none, silenced := false }).soundZone z
      (soundPattern (s.stateAfterReset z)) = b := by
    refine (soundZone_of_cgt (s := a) (t := a.setFire z _) rfl).trans ?_
    unfold b stateAfterReset
    split <;> rfl
  obtain ⟨hcls', hfrs'⟩ := resetTold_kept b z (s.fireState z) (s.stateAfterReset z)
  have hb : Sent (a.setFire z { s.fire z with state := s.stateAfterReset z, cause := none, silenced := false }) b :=
    queueUrgentAll_sent _ _ _ _
  have hzone : (b.resetTold z (s.fireState z) (s.stateAfterReset z)).zone z = s.zone z :=
    zone_of_cls (hcls'.trans (hb.cls.trans hcls)) z
  have hreset : s.resetFire z = ((s.zone z).coupled.take (s.zone z).coupledCount).foldl (uncoupleOne z)
      (b.resetTold z (s.fireState z) (s.stateAfterReset z)) := by
    have hbefore : s.resetFire z = (let e := b.resetTold z (s.fireState z) (s.stateAfterReset z)
        (e.zone z).coupledList.foldl (uncoupleOne z) e) := by
      rw [← hframes, ← hfire, ← hnew]
      rfl
    rw [hbefore]
    dsimp only
    rw [hzone]
    rfl
  refine ⟨hreset, ?_⟩
  rw [hreset, foldl_uncoupleOne_fireState, fireState_of_frs (hfrs'.trans hb.frs)]
  simp [fireState]

end
end State
end Sys2Proof.Machine

namespace Sys2Proof.Proofs
open Sys2Proof.Machine Sys2Proof.Machine.State

/-- Settles O30, each request in the order of its tests; taking a request moves nothing they read. -/
theorem fireRequests : Obligations.FireRequests := by
  intro s tag z hready
  refine ⟨?silence, ?release, ?reset⟩
  case silence =>
    intro u
    obtain ⟨hactive, -, -, -, -, hfire, hfireState, -⟩ := requested_accessors s (.zoneSilence tag z)
    rw [exec_zoneSilence tag hready]
    have hdone := fun hz h => zoneSilenceRequest_active (s := u) (z := z) tag hz (hactive.trans h)
    have hstate : u.fireState z = s.fireState z := congrFun hfireState z
    have hrec : u.fire z = s.fire z := congrFun hfire z
    rw [hstate, hrec] at hdone
    exact ⟨fun hz => congrArg Host.Outcome.next (zoneSilenceRequest_outOfRange tag hz),
      fun hz h => congrArg Host.Outcome.next (zoneSilenceRequest_config tag hz (hactive.trans h)),
      fun hz h h1 h2 => congrArg Host.Outcome.next ((hdone hz h).trans (if_neg fun h => h.elim h1 h2)),
      fun hz h h1 => congrArg Host.Outcome.next ((hdone hz h).trans (if_pos h1))⟩
  case release =>
    intro u
    obtain ⟨hactive, -, hzone, -, -, -, hfireState, -⟩ := requested_accessors s (.zoneRelease tag z)
    rw [exec_zoneRelease tag hready, ← hactive, ← hzone, ← hfireState]
    refine ⟨fun hz => congrArg Host.Outcome.next (zoneReleaseRequest_outOfRange tag hz),
      fun hz h => congrArg Host.Outcome.next (zoneReleaseRequest_config tag hz h),
      fun hz h hfit => congrArg Host.Outcome.next (zoneReleaseRequest_notFitted tag hz h hfit), fun hz h hfit => ?_⟩
    obtain ⟨hbelow, habove, halarm⟩ := zoneReleaseRequest_fitted tag hz h hfit
    exact ⟨fun hf => congrArg Host.Outcome.next (hbelow hf), fun hf => congrArg Host.Outcome.next (habove hf),
      fun hf => congrArg Host.Outcome.next (halarm hf)⟩
  case reset =>
    intro u
    obtain ⟨hactive, -, hzone, -, -, hfire, hfireState, -⟩ := requested_accessors s (.zoneFireReset tag z)
    obtain ⟨-, -, hcgt, -, hfrs, -, -, -, -, -, -, -, -, hrelease, -⟩ := requested_fields s (.zoneFireReset tag z)
    have hinputs : ∀ k, u.inputsOf z k = s.inputsOf z k := inputsOf_of_same hcgt (congrArg Frs.inputs hfrs)
    have hstage : u.inputStage = s.inputStage := by funext i; simp only [inputStage, u, hfrs]
    have htimer : u.releaseTimer = s.releaseTimer := by funext i; simp only [releaseTimer, u, hrelease]
    rw [exec_zoneFireReset tag hready, ← hactive, ← hzone, ← hfireState, ← hfire, ← hstage, ← htimer]
    refine ⟨fun hz => congrArg Host.Outcome.next (zoneFireResetRequest_outOfRange tag hz),
      fun hz h => congrArg Host.Outcome.next (zoneFireResetRequest_config tag hz h),
      fun hz h hf => congrArg Host.Outcome.next (zoneFireResetRequest_notLatched tag hz h hf),
      fun hz h hf => ⟨fun front e back hlist hfront he => ?_, fun hclear => ?_⟩⟩
    · rw [← hinputs] at hlist
      exact congrArg Host.Outcome.next (zoneFireResetRequest_notClear tag hz h hf (firstNotClear_some hlist hfront he))
    · rw [← hinputs] at hclear
      intro new a b c d e f
      obtain ⟨hreset, hafter⟩ := resetFire_eq (preAlarmHolds_clear hclear)
      rw [zoneFireResetRequest_clear tag hz h hf (firstNotClear_none hclear), hafter, hreset]
      rfl

end Sys2Proof.Proofs
end

section
/-! The minute scan and the AGENT sweep (R107 to R114). -/
namespace Sys2Proof.Machine

theorem length_field (p : List Byte) (i n : Nat) : (field p i n).length = n := by
  simp [field]

theorem mediaNotice_eq (cause : Nat) {part : Nat} (h : part ≤ 255) (about : List Byte) (final : Bool)
    (entries : List (Nat × Ident)) : mediaNotice cause about part final entries
      = [4, byteOf cause] ++ about ++ [byteOf part, if final then 1 else 0, byteOf entries.length]
        ++ entries.flatMap (fun p => [byteOf (p.1 / 256), byteOf p.1] ++ field p.2 0 8) := by
  have hpart : partByte part = byteOf part := if_pos (by omega)
  unfold mediaNotice
  rw [hpart]
  simp only [List.append_assoc]
  rfl

theorem length_mediaNotice (cause part : Nat) {about : List Byte} (h : about.length = 4) (final : Bool)
    (entries : List (Nat × Ident)) : (mediaNotice cause about part final entries).length = 9 + 10 * entries.length := by
  have hentries : (entries.flatMap (fun p => enc2 p.1 ++ field p.2 0 8)).length = 10 * entries.length := by
    induction entries with
    | nil => rfl
    | cons p entries ih =>
      rw [List.flatMap_cons, List.length_append, ih, List.length_append, length_field, List.length_cons, Nat.mul_succ,
        Nat.add_comm]
      rfl
  simp only [mediaNotice, List.length_append, hentries, h]
  simp only [enc1, encBool, List.length_cons, List.length_nil]

namespace State

section
variable {s : State}

/-! ### The minute scan -/

theorem minuteScanVisit_idle (h : s.csu.scan.position = none) : s.minuteScanVisit = s := by
  unfold minuteScanVisit
  rw [h]

theorem minuteScanVisit_at {slot : Nat} (h : s.csu.scan.position = some slot) :
    let visited := (s.mediaAt slot).elim s (fun r => s.scanRecordVisit slot r)
    s.minuteScanVisit = if slot + 1 < 4096 then visited.setScan { visited.csu.scan with position := some (slot + 1) }
      else visited.endPass := by
  unfold minuteScanVisit
  rw [h]
  dsimp only
  cases s.mediaAt slot <;> rfl

section
variable {slot : Nat} {r : MediaRec}

theorem scanRecordVisit_released {m : Minute} (h : r.custody = .acclimatizing m) (hm : m ≤ s.tmb.minuteClock)
    (hc : (s.climate r.home).state ∈ [ClimateState.normal, .warning]) : s.scanRecordVisit slot r
      = (s.setMedia slot (some { r with custody := .shelved })).gatherRelease slot r.id := by
  unfold scanRecordVisit
  rw [h]
  refine (if_pos hm).trans ?_
  rcases (List.mem_cons.mp hc).imp_right List.mem_singleton.mp with hc | hc <;> rw [hc]

theorem scanRecordVisit_kept {m : Minute} (h : r.custody = .acclimatizing m)
    (hno : s.tmb.minuteClock < m ∨ (s.climate r.home).state ∉ [ClimateState.normal, .warning]) :
    s.scanRecordVisit slot r = s := by
  unfold scanRecordVisit
  rw [h]
  rcases hno with hno | hno
  · exact if_neg (BitVec.not_le.mpr hno)
  · refine ite_eq_right_iff.mpr fun _ => ?_
    cases hc : (s.climate r.home).state with
    | normal | warning => simp [hc] at hno
    | noData | excursion | critical => rfl

theorem scanRecordVisit_overdue {since due : Minute} (h : r.custody = .checkedOut since (some due) false)
    (hdue : due < s.tmb.minuteClock) : s.scanRecordVisit slot r
      = (s.setMedia slot (some { r with custody := .checkedOut since (some due) true })).raiseEvent .mediaOverdue slot := by
  unfold scanRecordVisit
  rw [h]
  exact if_pos hdue

theorem scanRecordVisit_notDue {since due : Minute} (h : r.custody = .checkedOut since (some due) false)
    (hdue : s.tmb.minuteClock ≤ due) : s.scanRecordVisit slot r = s := by
  unfold scanRecordVisit
  rw [h]
  exact if_neg (BitVec.not_lt.mpr hdue)

theorem scanRecordVisit_other (h : ∀ m, r.custody ≠ .acclimatizing m)
    (h' : ∀ since due, r.custody ≠ .checkedOut since (some due) false) : s.scanRecordVisit slot r = s := by
  unfold scanRecordVisit
  split
  · rename_i hc; exact absurd hc (h _)
  · rename_i hc; exact absurd hc (h' _ _)
  · rfl

end

theorem gatherRelease_eq (s : State) (slot : Nat) (id : Ident) :
    let r := s.csu.scan
    (r.entries.length < 15 → s.gatherRelease slot id = s.setScan { r with entries := r.entries ++ [(slot, id)] })
    ∧ (15 ≤ r.entries.length →
      s.gatherRelease slot id = (s.setScan { r with entries := [], offered := r.offered + 1 }).offerNotice
        (mediaNotice 0 (enc4 r.began) (r.offered + 1) false (r.entries ++ [(slot, id)]))) := by
  have hlen : (s.csu.scan.entries ++ [(slot, id)]).length = s.csu.scan.entries.length + 1 := List.length_append
  refine ⟨fun h => if_pos ?_, fun h => if_neg ?_⟩ <;> rw [hlen, Config.mediaNoticeEntries] <;> omega

theorem endPass_eq (s : State) :
    let r := s.csu.scan
    let told := if r.entries = [] ∧ r.offered = 0 then s
      else s.offerNotice (mediaNotice 0 (enc4 r.began) (r.offered + 1) true r.entries)
    (r.further = true → s.endPass = told.setScan ⟨some 0, false, s.tmb.minuteClock, [], 0⟩)
    ∧ (r.further = false → s.endPass = told.setScan ⟨none, false, 0, [], 0⟩) := by
  intro r told
  have hnow : told.now = s.tmb.minuteClock := by
    unfold told
    split
    · rfl
    · exact (offerNotice_reported _ _).minuteClock
  refine ⟨fun h => (if_pos h).trans ?_, fun h => if_neg (by simp [r, h])⟩
  exact congrArg (fun m => told.setScan ⟨some 0, false, m, [], 0⟩) hnow

theorem custodyMinute_active (h : s.active = true) :
    (s.csu.scan.position = none → s.custodyMinute = s.setScan ⟨some 0, false, s.tmb.minuteClock, [], 0⟩)
    ∧ (∀ slot, s.csu.scan.position = some slot → s.custodyMinute = s.setScan { s.csu.scan with further := true }) := by
  unfold custodyMinute
  rw [if_pos h]
  exact ⟨fun hp => by rw [hp]; rfl, fun slot hp => by rw [hp]⟩

/-! ### The AGENT sweep -/

theorem inRoom_iff (c : Custody) :
    inRoom c = true ↔ c = .shelved ∨ (∃ m, c = .acclimatizing m) ∨ (∃ n, c = .consigned n) := by
  cases c <;> simp [inRoom]

theorem agentSweepVisit_idle (h : s.csu.sweep.running = none) : s.agentSweepVisit = s := by
  unfold agentSweepVisit
  rw [h]

theorem agentSweepVisit_at {z slot : Nat} (h : s.csu.sweep.running = some (z, slot)) :
    let visited := (s.mediaAt slot).elim s (fun r => s.sweepRecordVisit z slot r)
    s.agentSweepVisit = if slot + 1 < 4096 then visited.setSweep { visited.csu.sweep with running := some (z, slot + 1) }
      else visited.endSweep z := by
  unfold agentSweepVisit
  rw [h]
  dsimp only
  cases s.mediaAt slot <;> rfl

theorem sweepRecordVisit_eq (s : State) (z slot : Nat) (r : MediaRec) :
    let room := r.custody = .shelved ∨ (∃ m, r.custody = .acclimatizing m) ∨ (∃ n, r.custody = .consigned n)
    (r.home = z → room → r.agent = false →
      s.sweepRecordVisit z slot r = (s.setMedia slot (some { r with agent := true })).gatherMark z slot r.id)
    ∧ (r.home ≠ z ∨ ¬ room ∨ r.agent = true → s.sweepRecordVisit z slot r = s) := by
  intro room
  have hroom : inRoom r.custody = true ↔ room := inRoom_iff r.custody
  refine ⟨fun hz hr ha => if_pos ⟨hz, hroom.mpr hr, ha⟩, fun h => if_neg ?_⟩
  rintro ⟨hz, hr, ha⟩
  rcases h with h | h | h
  · exact h hz
  · exact h (hroom.mp hr)
  · exact nomatch ha.symm.trans h

theorem gatherMark_eq (s : State) (z slot : Nat) (id : Ident) :
    let r := s.csu.sweep
    (r.entries.length < 15 → s.gatherMark z slot id = s.setSweep { r with entries := r.entries ++ [(slot, id)] })
    ∧ (15 ≤ r.entries.length →
      s.gatherMark z slot id = (s.setSweep { r with entries := [], offered := r.offered + 1 }).offerNotice
        (mediaNotice 1 [0, 0, 0, byteOf z] (r.offered + 1) false (r.entries ++ [(slot, id)]))) := by
  have hlen : (s.csu.sweep.entries ++ [(slot, id)]).length = s.csu.sweep.entries.length + 1 := List.length_append
  refine ⟨fun h => if_pos ?_, fun h => if_neg ?_⟩ <;> rw [hlen, Config.mediaNoticeEntries] <;> omega

theorem endSweep_last {z : Nat} (h : s.csu.sweep.queue = []) : s.endSweep z
    = (s.offerNotice (mediaNotice 1 [0, 0, 0, byteOf z] (s.csu.sweep.offered + 1) true s.csu.sweep.entries)).setSweep
        ⟨none, [], [], 0⟩ := by
  unfold endSweep
  dsimp only
  rw [h]
  rfl

theorem endSweep_next {z next : Nat} {rest : List Nat} (h : s.csu.sweep.queue = next :: rest) : s.endSweep z
    = (s.offerNotice (mediaNotice 1 [0, 0, 0, byteOf z] (s.csu.sweep.offered + 1) true s.csu.sweep.entries)).setSweep
        ⟨some (next, 0), rest, [], 0⟩ := by
  unfold endSweep
  dsimp only
  rw [h]
  rfl

theorem sweepZone_eq (s : State) (z : Nat) :
    let r := s.csu.sweep
    (r.running = none → s.sweepZone z = s.setSweep ⟨some (z, 0), r.queue, [], 0⟩)
    ∧ (r.running ≠ none → z ∉ r.queue → s.sweepZone z = s.setSweep { r with queue := r.queue ++ [z] })
    ∧ (r.running ≠ none → z ∈ r.queue → s.sweepZone z = s) := by
  intro r
  unfold sweepZone
  dsimp only
  cases h : s.csu.sweep.running with
  | none => exact ⟨fun _ => rfl, fun hno => absurd rfl hno, fun hno => absurd rfl hno⟩
  | some p => exact ⟨nofun, fun _ hz => if_neg hz, fun _ hz => if_pos hz⟩

end
end State
end Sys2Proof.Machine

namespace Sys2Proof.Proofs
open Sys2Proof.Machine Sys2Proof.Machine.State

/-- Settles O33: each visit by the record at its position, each end by what was gathered. -/
theorem minuteScanAndAgentSweep : Obligations.MinuteScanAndAgentSweep := by
  refine ⟨fun s => ⟨fun h => congrArg Host.Outcome.next (minuteScanVisit_idle h), fun slot h => ?scanVisit,
      fun slot r => ⟨fun m h => ⟨scanRecordVisit_released h, scanRecordVisit_kept h⟩,
        fun since due h => ⟨scanRecordVisit_overdue h, scanRecordVisit_notDue h⟩, scanRecordVisit_other⟩,
      gatherRelease_eq s, endPass_eq s, custodyMinute_active, custodyMinute_config⟩,
    fun s => ⟨fun h => congrArg Host.Outcome.next (agentSweepVisit_idle h), fun z slot h => ?sweepVisit,
      sweepRecordVisit_eq s, gatherMark_eq s, fun z => ⟨endSweep_last, fun next rest => endSweep_next⟩, sweepZone_eq s⟩,
    fun cause part about final entries hpart => ⟨mediaNotice_eq cause hpart about final entries,
      fun habout => length_mediaNotice cause part habout final entries⟩⟩
  case scanVisit =>
    intro visited
    exact ⟨fun hslot => congrArg Host.Outcome.next ((minuteScanVisit_at h).trans (if_pos (by omega))),
      fun hslot => congrArg Host.Outcome.next ((minuteScanVisit_at h).trans (if_neg (by omega)))⟩
  case sweepVisit =>
    intro visited
    exact ⟨fun hslot => congrArg Host.Outcome.next ((agentSweepVisit_at h).trans (if_pos (by omega))),
      fun hslot => congrArg Host.Outcome.next ((agentSweepVisit_at h).trans (if_neg (by omega)))⟩

end Sys2Proof.Proofs
end

section
/-! A RETURN at a door reader, and the report of every scan (R102, R104 to R106). -/
namespace Sys2Proof.Machine

theorem scanIntent_isSome_iff (p : List Byte) :
    (scanIntent p).isSome = true ↔ ∃ b, p.head? = some b ∧ b.toNat ≤ 3 := by
  rw [Option.isSome_iff_exists]
  constructor
  · rintro ⟨n, hn⟩
    exact ⟨_, (State.scanIntent_eq_some_iff p n).mp hn, by cases n <;> decide⟩
  · rintro ⟨b, hb, hle⟩
    have hcode : ∃ n : Intent, n.byte = b := by
      have hb4 : b.toNat = 0 ∨ b.toNat = 1 ∨ b.toNat = 2 ∨ b.toNat = 3 := by omega
      rcases hb4 with h | h | h | h
      · exact ⟨.take, BitVec.eq_of_toNat_eq h.symm⟩
      · exact ⟨.ret, BitVec.eq_of_toNat_eq h.symm⟩
      · exact ⟨.handover, BitVec.eq_of_toNat_eq h.symm⟩
      · exact ⟨.receive, BitVec.eq_of_toNat_eq h.symm⟩
    obtain ⟨n, rfl⟩ := hcode
    exact ⟨n, (State.scanIntent_eq_some_iff p n).mpr hb⟩

theorem scanFormOk_iff (p : List Byte) : scanFormOk p = true
    ↔ p.length = 9 ∧ (∃ b, p.head? = some b ∧ b.toNat ≤ 3) ∧ (field p 1 8).all identChar = true := by
  rw [scanFormOk, Bool.and_eq_true, Bool.and_eq_true, decide_eq_true_eq, scanIntent_isSome_iff, and_assoc]

/-- The fields of a TRANSACTION notice up to the outcome (R106). -/
def scanHead (e : StationEntry) (p : List Byte) (out : Outcome) : List Byte :=
  [2, byteOf e.addr, (match e.zone with | some z => byteOf z | none => 0xFF), byteAt p 0]
    ++ field p 1 8 ++ [byteOf out.code]

/-- Its fields after the minute clock. -/
def loanFields (out : Outcome) (c : Custody) : List Byte :=
  (match decide (out = .granted), some c with
    | true, some (.checkedOut since due _) => enc4 since ++ encPresence 4 (due.map enc4)
    | _, _ => zeros 4 ++ encPresence 4 none)
  ++ (match decide (out = .granted), some c with
    | true, some (.acclimatizing m) => encPresence 4 (some (enc4 m))
    | _, _ => encPresence 4 none)
  ++ zeros 1

theorem loanFields_refused {out : Outcome} (h : out ≠ .granted) (c : Custody) :
    loanFields out c = List.replicate 15 0 := by
  unfold loanFields
  rw [decide_eq_false h]
  rfl

theorem loanFields_granted (c : Custody) : loanFields .granted c = match c with
    | .checkedOut since (some due) _ => enc4 since ++ [1] ++ enc4 due ++ List.replicate 6 0
    | .checkedOut since none _ => enc4 since ++ List.replicate 11 0
    | .acclimatizing release => List.replicate 9 0 ++ [1] ++ enc4 release ++ [0]
    | _ => List.replicate 15 0 := by
  cases c with
  | checkedOut since due reported => cases due <;> rfl
  | shelved | out | consigned | arriving | acclimatizing => rfl

theorem length_loanFields (out : Outcome) (c : Custody) : (loanFields out c).length = 15 := by
  by_cases h : out = .granted
  · subst h
    rw [loanFields_granted]
    cases c with
    | checkedOut since due reported => cases due <;> rfl
    | shelved | out | consigned | arriving | acclimatizing => rfl
  · rw [loanFields_refused h, List.length_replicate]

theorem length_scanHead (e : StationEntry) (p : List Byte) (out : Outcome) : (scanHead e p out).length = 13 := by
  rw [scanHead, List.length_append, List.length_append, length_field]
  rfl

namespace State

/-! ### The report of a scan -/

section
variable {u : State} {e : StationEntry} {p : List Byte} {out : Outcome}

theorem scanHead_eq : enc1 2 ++ enc1 e.addr ++ encZone e.zone ++ [byteAt p 0] ++ field p 1 8 ++ enc1 out.code
    = scanHead e p out := by
  unfold scanHead
  cases e.zone <;> rfl

theorem transactionNotice_unknown {found : Option Nat} (h : found.bind u.mediaAt = none) :
    u.transactionNotice e p out found = scanHead e p out ++ [0, 0, 0, 0] ++ enc4 u.tmb.minuteClock
      ++ List.replicate 15 0 := by
  unfold transactionNotice
  dsimp only
  rw [h, scanHead_eq]
  cases found <;> cases decide (out = .granted) <;> simp only [List.append_assoc] <;> rfl

theorem transactionNotice_known {slot : Nat} {r : MediaRec} (h : u.mediaAt slot = some r) :
    u.transactionNotice e p out (some slot) = scanHead e p out
      ++ [1, byteOf (slot / 256), byteOf slot, byteOf r.custody.code] ++ enc4 u.tmb.minuteClock
      ++ loanFields out r.custody := by
  unfold transactionNotice
  dsimp only
  rw [Option.bind_some, h, scanHead_eq]
  simp only [loanFields, List.append_assoc, Option.map_some]
  rfl

theorem length_transactionNotice (u : State) (e : StationEntry) (p : List Byte) (out : Outcome) (found : Option Nat) :
    (u.transactionNotice e p out found).length = 36 := by
  cases h : found.bind u.mediaAt with
  | none => simp [transactionNotice_unknown h, length_scanHead, enc4]
  | some r =>
    obtain ⟨slot, rfl, hslot⟩ := Option.bind_eq_some_iff.mp h
    simp [transactionNotice_known hslot, length_scanHead, length_loanFields, enc4]

end

/-! ### The checks of a RETURN -/

section
variable {s : State} {zone : Option Nat} {id : Ident} {slot : Nat} {r : MediaRec}

theorem returnOutcome_unknown (h : s.mediaById id = none) : s.returnOutcome zone id = (.unknownMedia, none) := by
  unfold returnOutcome
  rw [h]

theorem returnOutcome_wrongZone (h : s.mediaById id = some (slot, r)) (hz : zone ≠ some r.home) :
    s.returnOutcome zone id = (.wrongZone, some slot) := by
  unfold returnOutcome
  rw [h]
  exact congrArg (·, some slot) (if_pos hz)

theorem returnOutcome_state (h : s.mediaById id = some (slot, r)) (hz : zone = some r.home)
    (hc : ∀ since due reported, r.custody ≠ .checkedOut since due reported) :
    s.returnOutcome zone id = (.state, some slot) := by
  unfold returnOutcome
  rw [h]
  refine congrArg (·, some slot) ((if_neg (Classical.not_not.mpr hz)).trans ?_)
  split
  · rename_i hcustody; exact absurd hcustody (hc _ _ _)
  · rfl

theorem returnOutcome_home {since : Minute} {due : Option Minute} {reported : Bool}
    (h : s.mediaById id = some (slot, r)) (hz : zone = some r.home) (hc : r.custody = .checkedOut since due reported) :
    s.returnOutcome zone id = (if (s.fireState r.home).latched then .fire else .granted, some slot) := by
  unfold returnOutcome
  rw [h]
  refine congrArg (·, some slot) ((if_neg (Classical.not_not.mpr hz)).trans ?_)
  rw [hc]

theorem returnedRecord_late {since m : Minute} {reported : Bool} (hc : r.custody = .checkedOut since (some m) reported)
    (hm : m < s.tmb.minuteClock) : s.returnedRecord r
      = { r with custody := .acclimatizing (s.tmb.minuteClock + BitVec.ofNat 32 (s.classEntry r.cls).baseHold) } := by
  unfold returnedRecord
  rw [hc]
  exact if_pos hm

theorem returnedRecord_onTime {since : Minute} {due : Option Minute} {reported : Bool}
    (hc : r.custody = .checkedOut since due reported) (hm : ∀ m, due = some m → s.tmb.minuteClock ≤ m) :
    s.returnedRecord r = { r with custody := .shelved } := by
  unfold returnedRecord
  rw [hc]
  cases due with
  | none => rfl
  | some m => exact if_neg (BitVec.not_lt.mpr (hm m rfl))

variable {e : StationEntry} {p : List Byte}

theorem serveReturn_refused {out : Outcome} {found : Option Nat}
    (hchecks : s.returnOutcome e.zone (field p 1 8) = (out, found)) (hout : out ≠ .granted) :
    s.serveReturn e p = s.scanReport e p out found := by
  unfold serveReturn
  rw [hchecks]
  dsimp only
  split
  · exact absurd rfl hout
  · rfl

theorem serveReturn_granted (hchecks : s.returnOutcome e.zone (field p 1 8) = (.granted, some slot))
    (hslot : s.mediaAt slot = some r) : s.serveReturn e p
      = (s.setMedia slot (some (s.returnedRecord r))).scanReport e p .granted (some slot) := by
  unfold serveReturn
  rw [hchecks]
  dsimp only
  rw [Option.bind_some, hslot]

/-! ### Which command is served -/

theorem exec_returnScan {entry : Nat} (hserves : s.serves entry) (hkind : (s.station entry).kind = .reader)
    (hrole : (s.station entry).role = .door) (hhead : p.head? = some 1) :
    exec (.returnScan entry p) s = .next (if scanFormOk p
      then (s.takeHanded (.returnScan entry p)).serveReturn (s.station entry) p
      else (s.takeHanded (.returnScan entry p)).scanReport (s.station entry) p .malformed none) := by
  have hcommand := scanCommand_door (i := entry) (p := p) hkind hrole
  rw [hhead] at hcommand
  have hfits : StationEntry.scansAs entry p (.returnScan entry p) (s.station entry) = true := by
    simp [StationEntry.scansAs, StationEntry.scans, hkind, Option.some.inj hcommand]
  exact congrArg Host.Outcome.next (take_eq hserves hfits _ _)

/-- At a door reader all but the intents RETURN, HANDOVER and RECEIVE are taken as a TAKE (R25). -/
theorem scanCommand_door_take {i : Nat} (hkind : e.kind = .reader) (hrole : e.role = .door)
    (hhead : p.head? ∉ [some 1, some 2, some 3]) : scanCommand e i p = .takeScan i p := by
  unfold scanCommand
  rw [hkind, hrole]
  cases hn : scanIntent p with
  | none => rfl
  | some n =>
    rw [(scanIntent_eq_some_iff p n).mp hn] at hhead
    cases n with
    | take => rfl
    | ret | handover | receive => simp [Intent.byte] at hhead

theorem exec_takeScan_malformed {entry : Nat} (hserves : s.serves entry) (hkind : (s.station entry).kind = .reader)
    (hrole : (s.station entry).role = .door) (hhead : p.head? ∉ [some 1, some 2, some 3])
    (hform : ¬ scanFormOk p = true) :
    exec (.takeScan entry p) s
      = .next ((s.takeHanded (.takeScan entry p)).scanReport (s.station entry) p .malformed none) := by
  have hcommand : scanCommand (s.station entry) entry p = .takeScan entry p := scanCommand_door_take hkind hrole hhead
  have hfits : StationEntry.scansAs entry p (.takeScan entry p) (s.station entry) = true := by
    simp [StationEntry.scansAs, StationEntry.scans, hkind, hcommand]
  exact congrArg Host.Outcome.next ((take_eq hserves hfits _ _).trans (if_neg hform))

theorem exec_wrongStationScan {entry : Nat} (hserves : s.serves entry) (hscans : (s.station entry).scans = true)
    (hcommand : scanCommand (s.station entry) entry p = .wrongStationScan entry p) :
    exec (.wrongStationScan entry p) s = .next ((s.takeHanded (.wrongStationScan entry p)).scanReport (s.station entry) p
      (if scanFormOk p then .wrongStation else .malformed) none) := by
  have hfits : StationEntry.scansAs entry p (.wrongStationScan entry p) (s.station entry) = true := by
    simp [StationEntry.scansAs, hscans, hcommand]
  refine congrArg Host.Outcome.next ((take_eq hserves hfits _ _).trans ?_)
  cases scanFormOk p <;> rfl

/-- The stations and intents that do not belong together (R105). -/
theorem scanCommand_wrongStation {i : Nat}
    (h : (e.kind = .reader ∧ e.role = .door ∧ p.head? ∈ [some 2, some 3])
      ∨ (e.kind = .reader ∧ e.role = .witness ∧ p.head? ≠ some 3)
      ∨ (e.kind = .courierTerminal ∧ p.head? ≠ some 2) ∨ (e.kind = .reader ∧ e.role = .none)) :
    e.scans = true ∧ scanCommand e i p = .wrongStationScan i p := by
  rcases h with ⟨hk, hr, hp⟩ | ⟨hk, hr, hp⟩ | ⟨hk, hp⟩ | ⟨hk, hr⟩
  · refine ⟨by simp [StationEntry.scans, hk], Option.some.inj ?_⟩
    rw [scanCommand_door hk hr]
    rcases (List.mem_cons.mp hp).imp_right List.mem_singleton.mp with hp | hp <;> rw [hp] <;> rfl
  · exact ⟨by simp [StationEntry.scans, hk], (scanCommand_witness hk hr).trans (if_neg hp)⟩
  · exact ⟨by simp [StationEntry.scans, hk], (scanCommand_terminal hk).trans (if_neg hp)⟩
  · exact ⟨by simp [StationEntry.scans, hk], scanCommand_noRole hk hr⟩

end
end State
end Sys2Proof.Machine

namespace Sys2Proof.Proofs
open Sys2Proof.Machine Sys2Proof.Machine.State

/-- Settles O32: a RETURN check by check, the other scans by what they are dispatched as, and the notice by whether a record
is found. -/
theorem returnsAndScanReports : Obligations.ReturnsAndScanReports := by
  refine ⟨fun s entry p hserves hwf hkind hrole hlen hhead hchars => ?returns,
    fun s entry p hserves => ?reports, by decide⟩
  case returns =>
    intro e u
    have hform : scanFormOk p = true := (scanFormOk_iff p).mpr ⟨hlen, ⟨1, hhead, by decide⟩, hchars⟩
    have hserved : exec (.returnScan entry p) s = .next (u.serveReturn e p) :=
      (exec_returnScan hserves hkind hrole hhead).trans (congrArg Host.Outcome.next (if_pos hform))
    have refused {out : Machine.Outcome} {found : Option Nat}
        (hchecks : u.returnOutcome e.zone (field p 1 8) = (out, found)) (hout : out ≠ .granted) :
        exec (.returnScan entry p) s = .next (u.scanReport e p out found) :=
      hserved.trans (congrArg Host.Outcome.next (serveReturn_refused hchecks hout))
    refine ⟨fun hnone => refused (returnOutcome_unknown hnone) nofun, fun slot r hfound =>
      ⟨fun hz => refused (returnOutcome_wrongZone hfound hz) nofun, fun hz =>
        ⟨fun hc => refused (returnOutcome_state hfound hz hc) nofun, fun since due reported hc => ?_⟩⟩⟩
    have hchecks := returnOutcome_home (s := u) hfound hz hc
    have granted (hfire : (s.fireState r.home).latched = false) {r' : MediaRec} (hr : u.returnedRecord r = r') :
        exec (.returnScan entry p) s
          = .next ((u.setMedia slot (some r')).scanReport e p .granted (some slot)) := by
      have hchecks' : u.returnOutcome e.zone (field p 1 8) = (.granted, some slot) :=
        hchecks.trans (congrArg (·, some slot) (if_neg (Bool.eq_false_iff.mp hfire)))
      rw [← hr]
      exact hserved.trans (congrArg Host.Outcome.next
        (serveReturn_granted hchecks' (mediaAt_of_mediaById (s := u) hwf hfound)))
    exact ⟨fun hfire => refused (hchecks.trans (congrArg (·, some slot) (if_pos hfire))) nofun,
      fun hfire hm => granted hfire (returnedRecord_onTime hc hm),
      fun m hfire hdue hm => granted hfire (returnedRecord_late (hdue ▸ hc) hm)⟩
  case reports =>
    intro e formed
    have hform : scanFormOk p = true ↔ formed := scanFormOk_iff p
    refine ⟨fun hk hr hhead hno => exec_takeScan_malformed hserves hk hr hhead (mt hform.mp hno),
      fun hk hr hhead hno => (exec_returnScan hserves hk hr hhead).trans
        (congrArg Host.Outcome.next (if_neg (mt hform.mp hno))),
      fun hwrong => ?wrong, fun u out found => ⟨rfl, length_transactionNotice u e p out found, ?notice⟩⟩
    case wrong =>
      obtain ⟨hscans, hcommand⟩ := scanCommand_wrongStation hwrong
      have hexec := exec_wrongStationScan hserves hscans hcommand
      exact ⟨fun hf => hexec.trans (by rw [if_pos (hform.mpr hf)]), fun hf => hexec.trans (by rw [if_neg (mt hform.mp hf)])⟩
    case notice =>
      intro head now
      refine ⟨fun slot hnone => transactionNotice_unknown ?_, fun slot r hslot hr => ?known⟩
      · obtain rfl | ⟨rfl, hnone⟩ := hnone
        · rfl
        · exact hnone
      case known =>
        intro known
        subst hslot
        have hnotice : u.transactionNotice e p out (some slot) = known ++ loanFields out r.custody :=
          transactionNotice_known hr
        refine ⟨fun since due reported hout hc => ?_, fun since reported hout hc => ?_, fun release hout hc => ?_,
          fun hno => ?_⟩
        · rw [hnotice, hout, hc, loanFields_granted]
          simp only [List.append_assoc]
        · rw [hnotice, hout, hc, loanFields_granted]
          simp only [List.append_assoc]
        · rw [hnotice, hout, hc, loanFields_granted]
          simp only [List.append_assoc]
        · rw [hnotice]
          have hempty : loanFields out r.custody = List.replicate 15 0 := by
            by_cases hout : out = .granted
            · obtain ⟨hlent, hheld⟩ := hno.resolve_left (Classical.not_not.mpr hout)
              rw [hout, loanFields_granted]
              cases hc : r.custody with
              | checkedOut since due reported => exact absurd hc (hlent since due reported)
              | acclimatizing release => exact absurd hc (hheld release)
              | shelved | out | consigned | arriving => rfl
            · exact loanFields_refused hout _
          rw [hempty]

end Sys2Proof.Proofs
end

section
/-! The MEDIA requests (R116 to R119). -/
namespace Sys2Proof.Machine

theorem identOk_iff (id : Ident) : identOk id = true ↔ id.length = 8 ∧ id.all identChar = true := by
  rw [identOk, Bool.and_eq_true, decide_eq_true_eq]

/-- An index below the first that a canonical table lists reads as the default. -/
theorem Tab.read_below {α : Type} [DecidableEq α] {d : α} {t : Tab α} {lo : Nat} (h : Tab.wfFrom d lo t = true)
    {k : Nat} (hk : k < lo) : Tab.read d t k = d := by
  refine (Tab.default_or_mem d t k).resolve_right fun hmem => ?_
  have := (Tab.read_of_mem d t lo h _ _ hmem).2
  omega

theorem le_lowestFrom {α : Type} (lo : Nat) (t : Tab α) : lo ≤ State.lowestFrom lo t := by
  induction t generalizing lo with
  | nil => exact Nat.le_refl lo
  | cons p t ih =>
    rw [State.lowestFrom]
    split
    · exact Nat.le_trans (Nat.le_succ lo) (ih _)
    · exact Nat.le_refl lo

/-- `lowestFrom` finds the lowest index that a canonical table does not list. -/
theorem lowestFrom_spec {α : Type} [DecidableEq α] {d : α} {t : Tab α} {lo : Nat} (h : Tab.wfFrom d lo t = true) :
    Tab.read d t (State.lowestFrom lo t) = d
    ∧ ∀ k, lo ≤ k → k < State.lowestFrom lo t → Tab.read d t k ≠ d := by
  induction t generalizing lo with
  | nil => exact ⟨rfl, fun k hlo hk => absurd hk (Nat.not_lt.mpr hlo)⟩
  | cons p t ih =>
    obtain ⟨j, v⟩ := p
    simp only [Tab.wfFrom, Bool.and_eq_true, decide_eq_true_eq] at h
    obtain ⟨⟨hlo, hv⟩, ht⟩ := h
    by_cases hj : j = lo
    · subst hj
      obtain ⟨hfree, hused⟩ := ih ht
      have hge : j < State.lowestFrom (j + 1) t := le_lowestFrom (j + 1) t
      simp only [State.lowestFrom, if_true]
      refine ⟨?_, fun k hjk hk => ?_⟩
      · simpa [Tab.read, Nat.ne_of_lt hge] using hfree
      · rcases Nat.eq_or_lt_of_le hjk with rfl | hjk
        · simpa [Tab.read] using hv
        · simpa [Tab.read, Nat.ne_of_lt hjk] using hused k hjk hk
    · simp only [State.lowestFrom, if_neg hj]
      refine ⟨?_, fun k hlo hk => absurd hk (Nat.not_lt.mpr hlo)⟩
      simpa [Tab.read, hj] using Tab.read_below ht (by omega : lo < j + 1)

namespace State

section
variable {s : State}

theorem lowestFreeSlot_full (hwf : Tab.wf none s.csu.media = true) (h : ∀ k, k < 4096 → s.mediaAt k ≠ none) :
    s.lowestFreeSlot = none := by
  obtain ⟨hfree, -⟩ := lowestFrom_spec hwf
  exact if_neg fun hlt => h _ hlt hfree

theorem lowestFreeSlot_eq (hwf : Tab.wf none s.csu.media = true) {slot : Nat} (hslot : slot < 4096)
    (hfree : s.mediaAt slot = none) (hused : ∀ k, k < slot → s.mediaAt k ≠ none) : s.lowestFreeSlot = some slot := by
  obtain ⟨hfree', hused'⟩ := lowestFrom_spec hwf
  have hle : ¬ lowestFrom 0 s.csu.media < slot := fun hlt => hused _ hlt hfree'
  have hge : ¬ slot < lowestFrom 0 s.csu.media := fun hlt => hused' _ (Nat.zero_le _) hlt hfree
  have heq : lowestFrom 0 s.csu.media = slot := by omega
  unfold lowestFreeSlot
  rw [heq]
  exact if_pos hslot

/-! ### Each request, and MALFORMED -/

section
variable (tag : Byte) {id : Ident}

theorem mediaEnter_malformed {cls home initial : Nat}
    (h : identOk id = false ∨ (initial ≠ 0 ∧ initial ≠ 3)) :
    s.mediaEnter tag id cls home initial = s.reply 0x20 tag .malformed [] := by
  unfold mediaEnter
  rcases h with h | ⟨h0, h3⟩
  · rw [h]; rfl
  · have hnone : initialCustody initial = none := by
      unfold initialCustody
      split
      · exact absurd rfl h0
      · exact absurd rfl h3
      · rfl
    rw [hnone]
    cases identOk id <;> rfl

theorem mediaDelete_malformed (h : identOk id = false) :
    s.mediaDelete tag id = s.reply 0x21 tag .malformed [] := if_neg (Bool.eq_false_iff.mp h)

theorem mediaMove_malformed {home : Nat} (h : identOk id = false) :
    s.mediaMove tag id home = s.reply 0x22 tag .malformed [] := if_neg (Bool.eq_false_iff.mp h)

theorem mediaQuery_malformed (h : identOk id = false) :
    s.mediaQuery tag id = s.reply 0x25 tag .malformed [] := if_neg (Bool.eq_false_iff.mp h)

theorem holdOfCode_none {hold : Nat} (h : 1 < hold) : holdOfCode hold = none := by
  unfold holdOfCode
  split
  · omega
  · omega
  · rfl

theorem holdOfCode_eq {hold : Nat} (h : hold ≤ 1) : holdOfCode hold = some (decide (hold = 1)) := by
  obtain rfl | rfl : hold = 0 ∨ hold = 1 := by omega
  · rfl
  · rfl

theorem mediaHoldSet_malformed {hold : Nat} (h : identOk id = false ∨ 1 < hold) :
    s.mediaHoldSet tag id hold = s.reply 0x23 tag .malformed [] := by
  unfold mediaHoldSet
  rcases h with h | h
  · rw [h]; rfl
  · rw [holdOfCode_none h]
    cases identOk id <;> rfl

theorem mediaHoldClear_malformed {hold : Nat} (h : identOk id = false ∨ 1 < hold) :
    s.mediaHoldClear tag id hold = s.reply 0x24 tag .malformed [] := by
  unfold mediaHoldClear
  rcases h with h | h
  · rw [h]; rfl
  · rw [holdOfCode_none h]
    cases identOk id <;> rfl

/-! ### What each does with a well-formed identifier -/

variable (hid : identOk id = true)
include hid

/-- MEDIA ENTER after its form test (R116). -/
theorem mediaEnter_formed {cls home initial : Nat} (hi : initial = 0 ∨ initial = 3) :
    (7 < cls ∨ 15 < home → s.mediaEnter tag id cls home initial = s.reply 0x20 tag .range [])
    ∧ (cls ≤ 7 → home ≤ 15 →
      (∀ slot r, s.mediaById id = some (slot, r) → s.mediaEnter tag id cls home initial
        = s.replyRefused 0x20 tag .duplicate [byteOf (slot / 256), byteOf slot])
      ∧ (s.mediaById id = none → s.lowestFreeSlot = none →
        s.mediaEnter tag id cls home initial = s.reply 0x20 tag .full [])
      ∧ (∀ slot, s.mediaById id = none → s.lowestFreeSlot = some slot → s.mediaEnter tag id cls home initial
        = (s.setMedia slot (some ⟨id, cls, home, if initial = 0 then .shelved else .out, false, false⟩)).reply
            0x20 tag .done [byteOf (slot / 256), byteOf slot])) := by
  have hcustody : initialCustody initial = some (if initial = 0 then .shelved else .out) := by
    rcases hi with rfl | rfl <;> rfl
  unfold mediaEnter
  rw [hid, hcustody]
  refine ⟨fun h => if_pos h, fun hc hh => ⟨fun slot r hr => ?_, fun hn hf => ?_, fun slot hn hf => ?_⟩⟩ <;>
    refine (if_neg (by omega)).trans ?_
  · rw [hr]; rfl
  · rw [hn, hf]; rfl
  · rw [hn, hf]; rfl

theorem mediaDelete_notFound (h : s.mediaById id = none) : s.mediaDelete tag id = s.reply 0x21 tag .notFound [] := by
  unfold mediaDelete
  rw [if_pos hid, h]
  rfl

theorem mediaMove_range {home : Nat} (h : 15 < home) : s.mediaMove tag id home = s.reply 0x22 tag .range [] :=
  (if_pos hid).trans (if_pos h)

theorem mediaMove_notFound {home : Nat} (hh : home ≤ 15) (h : s.mediaById id = none) :
    s.mediaMove tag id home = s.reply 0x22 tag .notFound [] := by
  unfold mediaMove
  rw [if_pos hid, if_neg (by omega), h]
  rfl

theorem mediaHoldSet_notFound {hold : Nat} (hh : hold ≤ 1) (h : s.mediaById id = none) :
    s.mediaHoldSet tag id hold = s.reply 0x23 tag .notFound [] := by
  unfold mediaHoldSet
  rw [hid, holdOfCode_eq hh, h]
  rfl

theorem mediaHoldClear_notFound {hold : Nat} (hh : hold ≤ 1) (h : s.mediaById id = none) :
    s.mediaHoldClear tag id hold = s.reply 0x24 tag .notFound [] := by
  unfold mediaHoldClear
  rw [hid, holdOfCode_eq hh, h]
  rfl

theorem mediaQuery_notFound (h : s.mediaById id = none) : s.mediaQuery tag id = s.reply 0x25 tag .notFound [] := by
  unfold mediaQuery
  rw [if_pos hid, h]
  rfl

variable {slot : Nat} {r : MediaRec} (hfound : s.mediaById id = some (slot, r))
include hfound

theorem mediaDelete_found :
    (r.custody = .shelved ∨ r.custody = .out →
      s.mediaDelete tag id = (s.setMedia slot none).reply 0x21 tag .done [byteOf (slot / 256), byteOf slot])
    ∧ (r.custody ≠ .shelved → r.custody ≠ .out →
      s.mediaDelete tag id = s.replyRefused 0x21 tag .state [byteOf r.custody.code]) := by
  unfold mediaDelete
  rw [if_pos hid, hfound]
  dsimp only
  cases r.custody with
  | shelved | out => exact ⟨fun _ => rfl, fun h h' => by contradiction⟩
  | checkedOut | consigned | arriving | acclimatizing =>
    exact ⟨fun h => h.elim nofun nofun, fun _ _ => rfl⟩

theorem mediaMove_found {home : Nat} (hh : home ≤ 15) :
    (r.custody = .shelved → s.mediaMove tag id home
      = (s.setMedia slot (some { r with home := home })).reply 0x22 tag .done [byteOf r.home, byteOf home])
    ∧ (r.custody ≠ .shelved → s.mediaMove tag id home = s.replyRefused 0x22 tag .state []) := by
  unfold mediaMove
  rw [if_pos hid, if_neg (by omega), hfound]
  exact ⟨fun h => if_pos h, fun h => if_neg h⟩

theorem mediaHoldSet_manual : s.mediaHoldSet tag id 0
    = (s.setMedia slot (some { r with manual := true })).reply 0x23 tag .done [if r.agent then 3 else 1] := by
  unfold mediaHoldSet
  rw [hid, hfound]
  cases hagent : r.agent <;> simp [holdOfCode, MediaRec.holdByte, hagent] <;> rfl

theorem mediaHoldSet_agent : s.mediaHoldSet tag id 1
    = (s.setMedia slot (some { r with agent := true })).reply 0x23 tag .done [if r.manual then 3 else 2] := by
  unfold mediaHoldSet
  rw [hid, hfound]
  cases hmanual : r.manual <;> simp [holdOfCode, MediaRec.holdByte, hmanual] <;> rfl

theorem mediaHoldClear_manual : s.mediaHoldClear tag id 0
    = (s.setMedia slot (some { r with manual := false })).reply 0x24 tag .done [if r.agent then 2 else 0] := by
  unfold mediaHoldClear
  rw [hid, hfound]
  cases hagent : r.agent <;> simp [holdOfCode, MediaRec.holdByte, hagent] <;> rfl

theorem mediaHoldClear_agent :
    (s.fireState r.home ≠ .quiet → s.mediaHoldClear tag id 1 = s.replyRefused 0x24 tag .fire [])
    ∧ (s.fireState r.home = .quiet → s.mediaHoldClear tag id 1
      = (s.setMedia slot (some { r with agent := false })).reply 0x24 tag .done [if r.manual then 1 else 0]) := by
  unfold mediaHoldClear
  rw [hid, hfound]
  refine ⟨fun hf => if_pos ⟨rfl, hf⟩, fun hf => (if_neg fun h => h.2 hf).trans ?_⟩
  cases r.manual <;> simp [MediaRec.holdByte] <;> rfl

theorem mediaQuery_found : s.mediaQuery tag id = s.reply 0x25 tag .done
    ([byteOf (slot / 256), byteOf slot] ++ r.image ++ enc4 s.now) := by
  unfold mediaQuery
  rw [if_pos hid, hfound]
  rfl

end

/-! ### The commands -/

section
variable (hready : s.ready) (tag : Byte) (id : Ident)
include hready

theorem exec_mediaEnter (cls home initial : Nat) : exec (.mediaEnter tag id cls home initial) s
    = .next ((s.requested (.mediaEnter tag id cls home initial)).mediaEnter tag id cls home initial) :=
  congrArg Host.Outcome.next (serve_eq hready _ _ _ _)

theorem exec_mediaDelete : exec (.mediaDelete tag id) s
    = .next ((s.requested (.mediaDelete tag id)).mediaDelete tag id) :=
  congrArg Host.Outcome.next (serve_eq hready _ _ _ _)

theorem exec_mediaMove (home : Nat) : exec (.mediaMove tag id home) s
    = .next ((s.requested (.mediaMove tag id home)).mediaMove tag id home) :=
  congrArg Host.Outcome.next (serve_eq hready _ _ _ _)

theorem exec_mediaHoldSet (hold : Nat) : exec (.mediaHoldSet tag id hold) s
    = .next ((s.requested (.mediaHoldSet tag id hold)).mediaHoldSet tag id hold) :=
  congrArg Host.Outcome.next (serve_eq hready _ _ _ _)

theorem exec_mediaHoldClear (hold : Nat) : exec (.mediaHoldClear tag id hold) s
    = .next ((s.requested (.mediaHoldClear tag id hold)).mediaHoldClear tag id hold) :=
  congrArg Host.Outcome.next (serve_eq hready _ _ _ _)

theorem exec_mediaQuery : exec (.mediaQuery tag id) s
    = .next ((s.requested (.mediaQuery tag id)).mediaQuery tag id) :=
  congrArg Host.Outcome.next (serve_eq hready _ _ _ _)

end

/-- Taking a request moves nothing that a MEDIA request reads. -/
theorem requested_media (s : State) (c : Instr) : (s.requested c).mediaById = s.mediaById
    ∧ (s.requested c).lowestFreeSlot = s.lowestFreeSlot ∧ (s.requested c).fireState = s.fireState
    ∧ (s.requested c).now = s.now := by
  obtain ⟨-, hnow, -, -, -, -, hfireState, -, hmediaById, hlowest, -⟩ := requested_accessors s c
  exact ⟨hmediaById, hlowest, hfireState, hnow⟩

end
end State
end Sys2Proof.Machine

namespace Sys2Proof.Proofs
open Sys2Proof.Machine Sys2Proof.Machine.State

/-- Settles O35, request by request; taking one moves nothing it reads (`requested_media`). -/
theorem mediaRequests : Obligations.MediaRequests := by
  refine ⟨fun s tag id hready => ?malformed, fun s tag id hready hlen hchars => ?formed⟩
  case malformed =>
    intro malformed
    refine ⟨fun hbad => ?_, fun hold hh => ⟨?_, ?_⟩⟩
    · have hid : identOk id = false := by
        rw [← Bool.not_eq_true, identOk_iff]
        rcases hbad with hbad | hbad <;> simp [hbad]
      exact ⟨fun cls home initial => (exec_mediaEnter hready _ _ _ _ _).trans
          (congrArg Host.Outcome.next (mediaEnter_malformed tag (.inl hid))),
        (exec_mediaDelete hready _ _).trans (congrArg Host.Outcome.next (mediaDelete_malformed tag hid)),
        fun home => (exec_mediaMove hready _ _ _).trans (congrArg Host.Outcome.next (mediaMove_malformed tag hid)),
        fun hold => ⟨(exec_mediaHoldSet hready _ _ _).trans
            (congrArg Host.Outcome.next (mediaHoldSet_malformed tag (.inl hid))),
          (exec_mediaHoldClear hready _ _ _).trans
            (congrArg Host.Outcome.next (mediaHoldClear_malformed tag (.inl hid)))⟩,
        (exec_mediaQuery hready _ _).trans (congrArg Host.Outcome.next (mediaQuery_malformed tag hid))⟩
    · exact (exec_mediaHoldSet hready _ _ _).trans
        (congrArg Host.Outcome.next (mediaHoldSet_malformed tag (.inr hh)))
    · exact (exec_mediaHoldClear hready _ _ _).trans
        (congrArg Host.Outcome.next (mediaHoldClear_malformed tag (.inr hh)))
  case formed =>
    have hid : identOk id = true := (identOk_iff id).mpr ⟨hlen, hchars⟩
    have hmedia := fun c => (requested_media s c).1
    have hlowest := fun c => (requested_media s c).2.1
    refine ⟨fun cls home initial => ?enter, fun hnone => ?notFound, fun home hh => ?range, fun slot r hfound => ?found⟩
    case enter =>
      intro c u
      rw [exec_mediaEnter hready]
      refine ⟨fun h0 h3 => congrArg Host.Outcome.next (mediaEnter_malformed tag (.inr ⟨h0, h3⟩)), fun hi => ?_⟩
      obtain ⟨hrange, hin⟩ := mediaEnter_formed (s := u) tag hid (cls := cls) (home := home) hi
      simp only [show u.mediaById = s.mediaById from hmedia c,
        show u.lowestFreeSlot = s.lowestFreeSlot from hlowest c] at hin
      refine ⟨fun h => congrArg Host.Outcome.next (hrange h), fun hc hh => ?_⟩
      obtain ⟨hdup, hfull, hdone⟩ := hin hc hh
      exact ⟨fun slot r hr => congrArg Host.Outcome.next (hdup slot r hr),
        fun hn hused hwf => congrArg Host.Outcome.next (hfull hn (lowestFreeSlot_full hwf hused)),
        fun slot hn hwf hslot hfree hused =>
          congrArg Host.Outcome.next (hdone slot hn (lowestFreeSlot_eq hwf hslot hfree hused))⟩
    case notFound =>
      have hnone' : ∀ c, (s.requested c).mediaById id = none := fun c => (congrFun (hmedia c) id).trans hnone
      exact ⟨(exec_mediaDelete hready _ _).trans (congrArg Host.Outcome.next (mediaDelete_notFound tag hid (hnone' _))),
        fun home hh => (exec_mediaMove hready _ _ _).trans
          (congrArg Host.Outcome.next (mediaMove_notFound tag hid hh (hnone' _))),
        fun hold hh => ⟨(exec_mediaHoldSet hready _ _ _).trans
            (congrArg Host.Outcome.next (mediaHoldSet_notFound tag hid hh (hnone' _))),
          (exec_mediaHoldClear hready _ _ _).trans
            (congrArg Host.Outcome.next (mediaHoldClear_notFound tag hid hh (hnone' _)))⟩,
        (exec_mediaQuery hready _ _).trans (congrArg Host.Outcome.next (mediaQuery_notFound tag hid (hnone' _)))⟩
    case range =>
      exact (exec_mediaMove hready _ _ _).trans (congrArg Host.Outcome.next (mediaMove_range tag hid hh))
    case found =>
      have hfound' : ∀ c, (s.requested c).mediaById id = some (slot, r) := fun c => (congrFun (hmedia c) id).trans hfound
      have hfire : ∀ c, (s.requested c).fireState r.home = s.fireState r.home := fun c =>
        congrFun (requested_media s c).2.2.1 r.home
      refine ⟨?delete, fun home hh => ?move, ?setManual, ?setAgent, ?clearManual, ?refused, ?clearAgent, ?query⟩
      case delete =>
        intro u
        obtain ⟨hdone, hstate⟩ := mediaDelete_found tag hid (hfound' (.mediaDelete tag id))
        rw [exec_mediaDelete hready]
        exact ⟨fun h => congrArg Host.Outcome.next (hdone h), fun h h' => congrArg Host.Outcome.next (hstate h h')⟩
      case move =>
        intro u
        obtain ⟨hdone, hstate⟩ := mediaMove_found tag hid (hfound' (.mediaMove tag id home)) hh
        rw [exec_mediaMove hready]
        exact ⟨fun h => congrArg Host.Outcome.next (hdone h), fun h => congrArg Host.Outcome.next (hstate h)⟩
      case setManual =>
        exact (exec_mediaHoldSet hready _ _ _).trans (congrArg Host.Outcome.next (mediaHoldSet_manual tag hid (hfound' _)))
      case setAgent =>
        exact (exec_mediaHoldSet hready _ _ _).trans (congrArg Host.Outcome.next (mediaHoldSet_agent tag hid (hfound' _)))
      case clearManual =>
        exact (exec_mediaHoldClear hready _ _ _).trans
          (congrArg Host.Outcome.next (mediaHoldClear_manual tag hid (hfound' _)))
      case refused =>
        exact fun h => (exec_mediaHoldClear hready _ _ _).trans
          (congrArg Host.Outcome.next ((mediaHoldClear_agent tag hid (hfound' _)).1 (fun heq => h ((hfire _).symm.trans heq))))
      case clearAgent =>
        exact fun h => (exec_mediaHoldClear hready _ _ _).trans
          (congrArg Host.Outcome.next ((mediaHoldClear_agent tag hid (hfound' _)).2 ((hfire _).trans h)))
      case query =>
        refine (exec_mediaQuery hready _ _).trans (congrArg Host.Outcome.next ?_)
        rw [mediaQuery_found tag hid (hfound' _), (requested_media s _).2.2.2]
        rfl

end Sys2Proof.Proofs
end

section
/-! The frames of the hatch stations and the HANDOVER notice (R123, R127, R128, R185). -/
namespace Sys2Proof.Machine

theorem identFieldOk_eq (p : List Byte) (i : Nat) : identFieldOk p i = (field p i 8).all identChar := rfl

namespace State

/-! ### The HANDOVER notice -/

section
variable {s : State} {c : Consignment}

/-- What an item of a notice shows of its record (R185; log 20). -/
theorem itemRelease_acclimatizing {i : Item} {r : MediaRec} {m : Minute} (hi : i.status = .passed)
    (hr : s.mediaAt i.slot = some r) (hid : r.id = i.id) (hc : r.custody = .acclimatizing m) :
    s.itemRelease .inbound i = enc4 m := by
  unfold itemRelease
  rw [hi, hr]
  refine (if_pos hid).trans ?_
  rw [hc]

theorem itemRelease_empty {d : Direction} {i : Item} (h : d = .outbound ∨ i.status ≠ .passed
      ∨ (∀ r m, s.mediaAt i.slot = some r → r.id = i.id → r.custody ≠ .acclimatizing m)) :
    s.itemRelease d i = [0, 0, 0, 0] := by
  unfold itemRelease
  cases d with
  | outbound => rfl
  | inbound =>
    cases hi : i.status with
    | pending | missing => rfl
    | passed =>
      cases hr : s.mediaAt i.slot with
      | none => rfl
      | some r =>
        have hno : ∀ m, r.id = i.id → r.custody ≠ .acclimatizing m := fun m =>
          (h.resolve_left nofun).resolve_left (Classical.not_not.mpr hi) r m hr
        dsimp only
        split
        · rename_i hid
          split
          · rename_i m hc; exact absurd hc (hno m hid)
          · rfl
        · rfl

end

/-- One frame of a HANDOVER notice about a consignment (R185). -/
def handoverFrame (s : State) (c : Consignment) (event before after part final first : Nat) (items : List (List Byte)) :
    List Byte :=
  [3, byteOf c.hatch] ++ enc4 s.tmb.minuteClock ++ [byteOf event, byteOf (c.number / 256), byteOf c.number,
      byteOf c.direction.code] ++ field c.courier 0 8 ++ [byteOf before, byteOf after]
    ++ (match c.abort with
        | some (why, from_) => [byteOf why.code, byteOf from_.code]
        | none => [0, 0])
    ++ [match c.endCause with
        | some cause => byteOf cause.code
        | none => 0]
    ++ [byteOf c.items.length, byteOf part, byteOf final, byteOf first, byteOf items.length, 0] ++ items.flatten

theorem handoverHead_frame (s : State) (c : Consignment) (event before after part first : Nat) (final : Bool)
    (items : List (List Byte)) :
    HandoverHead.frame { hatch := c.hatch, event := event, number := c.number, direction := c.direction.code
                         courier := c.courier, before := before, after := after, abort := c.abort
                         endCause := c.endCause, itemCount := c.items.length, refusal := 0 }
        s.now part final first items
      = s.handoverFrame c event before after part (if final then 1 else 0) first items := by
  unfold HandoverHead.frame handoverFrame
  have habort : (match c.abort with
      | some (r, st) => enc1 r.code ++ enc1 st.code
      | none => zeros 2) = match c.abort with
        | some (why, from_) => [byteOf why.code, byteOf from_.code]
        | none => [0, 0] := by cases c.abort <;> rfl
  have hcause : enc1 (match c.endCause with | some c => c.code | none => 0) = [match c.endCause with
        | some cause => byteOf cause.code
        | none => 0] := by cases c.endCause <;> rfl
  have hfinal : encBool final = [byteOf (if final then 1 else 0)] := by cases final <;> rfl
  rw [← habort, ← hcause, hfinal]
  simp only [List.append_assoc]
  rfl

theorem handoverNotice_eq (s : State) (c : Consignment) (event before after : Nat) :
    let items := s.itemImages c
    (c.items.length ≤ 12 → s.handoverNotice c event before after
      = [s.handoverFrame c event before after 1 1 1 items])
    ∧ (12 < c.items.length → s.handoverNotice c event before after
      = [s.handoverFrame c event before after 1 0 1 (items.take 12),
         s.handoverFrame c event before after 2 1 13 (items.drop 12)]) := by
  intro items
  have hlen : items.length = c.items.length := List.length_map _
  unfold handoverNotice HandoverHead.frames
  refine ⟨fun h => (if_pos ?_).trans ?_, fun h => (if_neg ?_).trans ?_⟩
  · exact Nat.le_trans (Nat.le_of_eq hlen) h
  · rw [handoverHead_frame]; rfl
  · exact Nat.not_le.mpr (hlen ▸ h)
  · rw [handoverHead_frame, handoverHead_frame]; rfl

/-! ### The answers of R128 -/

section
variable {s : State} {e : StationEntry} {formOk : Bool} {sender : Nat → HatchEntry → Bool}
  {reply : Work → Outcome → Work} {serve : Work → Nat → HatchEntry → Work}

theorem hatchFrame_noHatch (h : s.hatchByStation e.addr = none) :
    s.hatchFrame e formOk sender reply serve = (reply s.begin .notAtHatch).finish := by
  unfold hatchFrame
  rw [h]

variable {h : Nat} {he : HatchEntry} (hhatch : s.hatchByStation e.addr = some (h, he))
include hhatch

theorem hatchFrame_malformed (hform : formOk = false) :
    s.hatchFrame e formOk sender reply serve = (reply s.begin .malformed).finish := by
  unfold hatchFrame
  rw [hhatch, hform]
  rfl

theorem hatchFrame_wrongStation (hform : formOk = true) (hsender : sender h he = false) :
    s.hatchFrame e formOk sender reply serve = (reply s.begin .wrongStation).finish := by
  unfold hatchFrame
  rw [hhatch, hform]
  dsimp only
  rw [hsender]
  rfl

theorem hatchFrame_served (hform : formOk = true) (hsender : sender h he = true) :
    s.hatchFrame e formOk sender reply serve = (serve s.begin h he).finish := by
  unfold hatchFrame
  rw [hhatch, hform]
  dsimp only
  rw [hsender]
  rfl

end

/-- The station that sends DONE at a hatch with a consignment beyond WAITING (R128). -/
theorem fromDoneStation_eq {s : State} {e : StationEntry} {h : Nat} {he : HatchEntry} {c : Consignment}
    (hc : s.activeOn h = some c) : s.fromDoneStation e h he = true
      ↔ (c.direction = .outbound ∧ he.terminal = e.addr) ∨ (c.direction = .inbound ∧ he.witness = e.addr) := by
  unfold fromDoneStation
  rw [hc]
  dsimp only
  cases c.direction <;> simp [fromTerminal, fromWitness]

/-! ### The commands -/

theorem exec_next_of_eq {s t u : State} {c : Instr} (hexec : exec c s = .next t) (h : t = u) : exec c s = .next u :=
  hexec.trans (congrArg Host.Outcome.next h)

theorem isHatchStation_of_kind {e : StationEntry}
    (h : e.kind = .courierTerminal ∨ (e.kind = .reader ∧ e.role = .witness)) : e.isHatchStation = true := by
  rcases h with h | ⟨h, h'⟩ <;> simp [StationEntry.isHatchStation, *]

section
variable {s : State} {entry : Nat} (hserves : s.serves entry) (p : List Byte)
include hserves

section
variable (hstation : (s.station entry).kind = .courierTerminal
  ∨ ((s.station entry).kind = .reader ∧ (s.station entry).role = .witness))
include hstation

theorem exec_arrive : exec (.arrive entry p) s
    = .next ((s.takeHanded (.arrive entry p)).takeArrive (s.station entry) p) :=
  congrArg Host.Outcome.next (take_eq hserves (isHatchStation_of_kind hstation) _ _)

theorem exec_caseReport : exec (.caseReport entry p) s
    = .next ((s.takeHanded (.caseReport entry p)).takeCase (s.station entry) p) :=
  congrArg Host.Outcome.next (take_eq hserves (isHatchStation_of_kind hstation) _ _)

theorem exec_accept : exec (.accept entry p) s
    = .next ((s.takeHanded (.accept entry p)).takeAccept (s.station entry) p) :=
  congrArg Host.Outcome.next (take_eq hserves (isHatchStation_of_kind hstation) _ _)

theorem exec_confirm : exec (.confirm entry p) s
    = .next ((s.takeHanded (.confirm entry p)).takeConfirm (s.station entry) p) :=
  congrArg Host.Outcome.next (take_eq hserves (isHatchStation_of_kind hstation) _ _)

theorem exec_doneStep : exec (.doneStep entry p) s
    = .next ((s.takeHanded (.doneStep entry p)).takeDone (s.station entry) p) :=
  congrArg Host.Outcome.next (take_eq hserves (isHatchStation_of_kind hstation) _ _)

end

theorem exec_scanHandover (hkind : (s.station entry).kind = .courierTerminal) (hhead : p.head? = some 2) :
    exec (.scanHandover entry p) s
      = .next ((s.takeHanded (.scanHandover entry p)).takeScanHandover (s.station entry) p) := by
  have hcommand := (scanCommand_terminal (i := entry) (p := p) hkind).trans (if_pos hhead)
  have hfits : StationEntry.scansAs entry p (.scanHandover entry p) (s.station entry) = true := by
    simp [StationEntry.scansAs, StationEntry.scans, hkind, hcommand]
  exact congrArg Host.Outcome.next (take_eq hserves hfits _ _)

theorem exec_scanReceive (hkind : (s.station entry).kind = .reader) (hrole : (s.station entry).role = .witness)
    (hhead : p.head? = some 3) : exec (.scanReceive entry p) s
      = .next ((s.takeHanded (.scanReceive entry p)).takeScanReceive (s.station entry) p) := by
  have hcommand := (scanCommand_witness (i := entry) (p := p) hkind hrole).trans (if_pos hhead)
  have hfits : StationEntry.scansAs entry p (.scanReceive entry p) (s.station entry) = true := by
    simp [StationEntry.scansAs, StationEntry.scans, hkind, hcommand]
  exact congrArg Host.Outcome.next (take_eq hserves hfits _ _)

end
end State
end Sys2Proof.Machine

namespace Sys2Proof.Proofs
open Sys2Proof.Machine Sys2Proof.Machine.State

/-- Settles O36: each refusal of R128 is one of the three of `hatchFrame`. -/
theorem hatchFramesAreAnsweredInOrder : Obligations.HatchFramesAreAnsweredInOrder := by
  refine ⟨fun _ => rfl, fun _ _ _ _ _ => ⟨rfl, rfl⟩, fun _ _ _ => rfl,
    fun s c event before after => ?notice,
    fun s d i => ⟨fun r m hd hi hr hid hc => hd ▸ itemRelease_acclimatizing hi hr hid hc, itemRelease_empty⟩,
    fun _ _ _ _ _ _ => ⟨rfl, rfl⟩, fun s entry p hserves => ?frames⟩
  case notice =>
    exact handoverNotice_eq s c event before after
  case frames =>
    intro e step scan
    refine ⟨fun hstation => ⟨fun hnone => ?none, fun h he hhatch => ?hatch⟩, fun hkind hhead => ?handover,
      fun hkind hrole hhead => ?receive⟩
    case none =>
      exact ⟨exec_next_of_eq (exec_arrive hserves p hstation) (hatchFrame_noHatch hnone),
        exec_next_of_eq (exec_caseReport hserves p hstation) (hatchFrame_noHatch hnone),
        exec_next_of_eq (exec_accept hserves p hstation) (hatchFrame_noHatch hnone),
        exec_next_of_eq (exec_confirm hserves p hstation) (hatchFrame_noHatch hnone),
        exec_next_of_eq (exec_doneStep hserves p hstation) (hatchFrame_noHatch hnone)⟩
    case hatch =>
      have harrive := exec_arrive hserves p hstation
      have hcase := exec_caseReport hserves p hstation
      have haccept := exec_accept hserves p hstation
      have hconfirm := exec_confirm hserves p hstation
      have hdone := exec_doneStep hserves p hstation
      refine ⟨fun hbad => exec_next_of_eq harrive (hatchFrame_malformed hhatch ?_),
        fun hlen => exec_next_of_eq hcase (hatchFrame_malformed hhatch (decide_eq_false hlen)),
        fun hlen => ⟨exec_next_of_eq haccept (hatchFrame_malformed hhatch (decide_eq_false hlen)),
          exec_next_of_eq hconfirm (hatchFrame_malformed hhatch (decide_eq_false hlen)),
          exec_next_of_eq hdone (hatchFrame_malformed hhatch (decide_eq_false hlen))⟩,
        fun hlen hother => ⟨fun hchars => exec_next_of_eq harrive (hatchFrame_wrongStation hhatch ?_ (decide_eq_false hother)),
          exec_next_of_eq hcase (hatchFrame_wrongStation hhatch (decide_eq_true hlen) (decide_eq_false hother))⟩,
        fun hlen hother => exec_next_of_eq haccept (hatchFrame_wrongStation hhatch (decide_eq_true hlen) (decide_eq_false hother)),
        fun hlen hother => exec_next_of_eq hconfirm (hatchFrame_wrongStation hhatch (decide_eq_true hlen) (decide_eq_false hother)),
        fun c hlen hc hother => exec_next_of_eq hdone (hatchFrame_wrongStation hhatch (decide_eq_true hlen) ?_)⟩
      · rcases hbad with hbad | hbad <;> simp [identFieldOk_eq, hbad]
      · simp [identFieldOk_eq, hlen, hchars]
      · rw [← Bool.not_eq_true, fromDoneStation_eq (s := s.takeHanded (.doneStep entry p)) hc]
        rintro (⟨hd, hsame⟩ | ⟨hd, hsame⟩) <;> simp [hd, hsame, e] at hother
    case handover =>
      have hexec := exec_scanHandover hserves p hkind hhead
      refine ⟨fun hnone => exec_next_of_eq hexec (hatchFrame_noHatch hnone), fun h he hhatch =>
        ⟨fun hbad => exec_next_of_eq hexec (hatchFrame_malformed hhatch ?_), fun hlen hchars hother =>
          exec_next_of_eq hexec (hatchFrame_wrongStation hhatch ?_ (decide_eq_false hother))⟩⟩
      · rcases hbad with hbad | hbad <;> simp [identFieldOk_eq, hbad]
      · simp [identFieldOk_eq, hlen, hchars]
    case receive =>
      have hexec := exec_scanReceive hserves p hkind hrole hhead
      refine ⟨fun hnone => exec_next_of_eq hexec (hatchFrame_noHatch hnone), fun h he hhatch =>
        ⟨fun hbad => exec_next_of_eq hexec (hatchFrame_malformed hhatch ?_), fun hlen hchars hother =>
          exec_next_of_eq hexec (hatchFrame_wrongStation hhatch ?_ (decide_eq_false hother))⟩⟩
      · rcases hbad with hbad | hbad <;> simp [identFieldOk_eq, hbad]
      · simp [identFieldOk_eq, hlen, hchars]

end Sys2Proof.Proofs
end

section
/-! ARRIVE at the courier terminal of a hatch (R127, R130). -/
namespace Sys2Proof.Machine

theorem field_of_length {q : List Byte} {n : Nat} (h : q.length = n) : field q 0 n = q := by
  refine List.ext_getElem ((length_field q 0 n).trans h.symm) fun i hi hi' => ?_
  simp [field, byteAt, hi']

theorem HandoverHead.frames_nil (hd : HandoverHead) (now : Minute) : hd.frames now [] = [hd.frame now 1 true 1 []] :=
  if_pos (Nat.zero_le _)

namespace Work

theorem anyHeld_iff (s : State) (c : Consignment) : anyHeld s c = true
    ↔ ∃ i ∈ c.items, ∃ r, s.mediaAt i.slot = some r ∧ (r.manual = true ∨ r.agent = true) := by
  rw [anyHeld, List.any_eq_true]
  refine exists_congr fun i => and_congr_right fun _ => ?_
  cases s.mediaAt i.slot with
  | none => simp
  | some r => simp [MediaRec.held_iff]

theorem matchCourier_none {s : State} {h : Nat} {courier : Ident}
    (hno : ∀ c ∈ s.hoc.consignments, c.hatch = h → c.state = .waiting → c.courier ≠ courier) :
    matchCourier s h courier = none := by
  refine List.find?_eq_none.mpr fun c hc => ?_
  simp only [Bool.and_eq_true, decide_eq_true_eq, not_and]
  exact fun ⟨hh, hs⟩ => hno c hc hh hs

theorem matchCourier_some {s : State} {h : Nat} {courier : Ident} {c : Consignment} {front back : List Consignment}
    (hlist : s.hoc.consignments = front ++ c :: back)
    (hfront : ∀ x ∈ front, x.hatch = h → x.state = .waiting → x.courier ≠ courier)
    (hh : c.hatch = h) (hs : c.state = .waiting) (hc : c.courier = courier) : matchCourier s h courier = some c := by
  have hskip : front.find? (fun c => decide (c.hatch = h) && decide (c.state = .waiting) && decide (c.courier = courier))
      = none := by
    refine List.find?_eq_none.mpr fun x hx => ?_
    simp only [Bool.and_eq_true, decide_eq_true_eq, not_and]
    exact fun ⟨hxh, hxs⟩ => hfront x hx hxh hxs
  rw [matchCourier, hlist, List.find?_append, hskip, Option.none_or, List.find?_cons_of_pos (by simp [hh, hs, hc])]

/-! ### Checks 4 to 7 -/

section
variable {s : State} {h : Nat} {he : HatchEntry} {c : Consignment}

/-- A fire at either side of the hatch, or an unwatched inner zone (R130). -/
def FireBars (s : State) (he : HatchEntry) : Prop :=
  s.fireState he.inner ≠ .quiet ∨ s.fireStateOf he.outer ≠ .quiet ∨ (s.fire he.inner).unmonitored = true

theorem fireBars_iff : FireBars s he ↔ s.fireState he.inner ≠ .quiet
    ∨ (∃ z, he.outer = some z ∧ s.fireState z ≠ .quiet) ∨ (s.fire he.inner).unmonitored = true := by
  refine or_congr_right (or_congr_left ?_)
  cases he.outer <;> simp [State.fireStateOf]

theorem arriveBars_hold (hheld : anyHeld s c = true) : arriveBars s h he c = some .hold := if_pos hheld

variable (hheld : ¬ anyHeld s c = true)
include hheld

theorem arriveBars_fire (hfire : FireBars s he) : arriveBars s h he c = some .fire :=
  (if_neg hheld).trans (if_pos hfire)

variable (hfire : ¬ FireBars s he)
include hfire

theorem arriveBars_climate (hclimate : climateBars (s.climate he.inner).state (s.zone he.inner).takeLimit = true) :
    arriveBars s h he c = some .climate :=
  (if_neg hheld).trans ((if_neg hfire).trans (if_pos hclimate))

variable (hclimate : ¬ climateBars (s.climate he.inner).state (s.zone he.inner).takeLimit = true)
include hclimate

theorem arriveBars_hatch (hajar : (s.hatchRuntime h).position ≠ .closedLocked ∨ (s.hatchRuntime h).manual = true) :
    arriveBars s h he c = some .hatch :=
  (if_neg hheld).trans ((if_neg hfire).trans ((if_neg hclimate).trans (if_pos hajar)))

theorem arriveBars_none (hajar : ¬ ((s.hatchRuntime h).position ≠ .closedLocked ∨ (s.hatchRuntime h).manual = true)) :
    arriveBars s h he c = none :=
  (if_neg hheld).trans ((if_neg hfire).trans ((if_neg hclimate).trans (if_neg hajar)))

end

/-! ### The service of ARRIVE -/

/-- A refused ARRIVE: its ANSWER and its one ARRIVE_REFUSED notice. -/
theorem refuseArrive_eq (w : Work) (h dst : Nat) {courier : Ident} (hcourier : courier.length = 8) (n : Nat)
    (out : Outcome) : w.refuseArrive h dst courier n out = (w.answerStep dst .arrive n out).notice
      [[3, byteOf h] ++ enc4 w.s.tmb.minuteClock ++ [3, byteOf (n / 256), byteOf n, 0] ++ courier
        ++ [0, 0, 0, 0, 0, 0, 1, 1, 1, 0, byteOf out.code]] := by
  refine congrArg (w.answerStep dst .arrive n out).notice ((HandoverHead.frames_nil _ _).trans ?_)
  unfold HandoverHead.frame
  rw [field_of_length hcourier]
  simp only [List.flatten_nil, List.append_nil, List.append_assoc]
  rfl

section
variable {w : Work} {h dst : Nat} {he : HatchEntry} {p : List Byte}

theorem serveArrive_supervision (hauto : w.s.mga.partState = .autonomous) :
    w.serveArrive h he dst p = w.refuseArrive h dst (field p 0 8) 0 .supervision := if_pos hauto

variable (hsup : w.s.mga.partState ≠ .autonomous)
include hsup

theorem serveArrive_busy (hbusy : w.s.activeOn h ≠ none) :
    w.serveArrive h he dst p = w.refuseArrive h dst (field p 0 8) 0 .busy :=
  (if_neg hsup).trans (if_pos (Option.isSome_iff_ne_none.mpr hbusy))

variable (hfree : w.s.activeOn h = none)
include hfree

theorem serveArrive_noConsignment (hnone : matchCourier w.s h (field p 0 8) = none) :
    w.serveArrive h he dst p = w.refuseArrive h dst (field p 0 8) 0 .noConsignment := by
  unfold serveArrive
  rw [if_neg hsup, if_neg (by simp [hfree]), hnone]

variable {c : Consignment} (hmatch : matchCourier w.s h (field p 0 8) = some c)
include hmatch

theorem serveArrive_barred {out : Outcome} (hbars : arriveBars w.s h he c = some out) :
    w.serveArrive h he dst p = w.refuseArrive h dst (field p 0 8) c.number out := by
  unfold serveArrive
  rw [if_neg hsup, if_neg (by simp [hfree]), hmatch]
  dsimp only
  rw [hbars]

theorem serveArrive_granted (hbars : arriveBars w.s h he c = none) : w.serveArrive h he dst p = w.grantArrive dst c := by
  unfold serveArrive
  rw [if_neg hsup, if_neg (by simp [hfree]), hmatch]
  dsimp only
  rw [hbars]

end

theorem grantArrive_inbound {w : Work} {dst : Nat} {c : Consignment} (h : c.direction = .inbound) :
    w.grantArrive dst c = ((w.answerStep dst .arrive c.number .granted).startStep c.hatch
      (w.s.hatch c.hatch).acceptTimeout false false).enter { c with state := .awaitCase } c.state := by
  unfold grantArrive
  rw [h]
  rfl

theorem grantArrive_outbound {w : Work} {dst : Nat} {c : Consignment} (h : c.direction = .outbound) :
    w.grantArrive dst c = (w.answerStep dst .arrive c.number .granted).runGate c := by
  unfold grantArrive
  rw [h]

end Work
end Sys2Proof.Machine

namespace Sys2Proof.Proofs
open Sys2Proof.Machine Sys2Proof.Machine.State Sys2Proof.Machine.Work

/-- Settles O37, check by check; taking the handed event moves nothing the checks read. -/
theorem arriveIsCheckedInOrder : Obligations.ArriveIsCheckedInOrder := by
  intro s entry p h he hserves hkind hhatch hterminal hentry hlen hchars dst w refused
  have hexec : exec (.arrive entry p) s = .next ((w.serveArrive h he dst p).finish) :=
    exec_next_of_eq (exec_arrive hserves p (.inl hkind))
      (hatchFrame_served hhatch (by simp [identFieldOk_eq, hlen, hchars]) (decide_eq_true hterminal))
  have hrefused {n : Nat} {out : Machine.Outcome}
      (hserve : w.serveArrive h he dst p = w.refuseArrive h dst (field p 0 8) n out) : refused n out :=
    exec_next_of_eq hexec
      (congrArg Work.finish (hserve.trans (refuseArrive_eq w h dst (length_field p 0 8) n out)))
  refine ⟨fun hauto => hrefused (serveArrive_supervision hauto),
    fun hsup hbusy => hrefused (serveArrive_busy hsup hbusy),
    fun hsup hfree => ⟨fun hno => hrefused (serveArrive_noConsignment hsup hfree (matchCourier_none hno)),
      fun c front back hlist hfront hh hs hc => ?matched⟩⟩
  case matched =>
    intro held fire damp ajar w1
    have hmatch : matchCourier w.s h (field p 0 8) = some c := matchCourier_some (s := w.s) hlist hfront hh hs hc
    have hheld : anyHeld w.s c = true ↔ held := anyHeld_iff w.s c
    have hfire : FireBars w.s he ↔ fire := fireBars_iff
    have hdamp : climateBars (w.s.climate he.inner).state (w.s.zone he.inner).takeLimit = true ↔ damp :=
      climateBars_iff _ _
    have hbarred {out : Machine.Outcome} (hbars : arriveBars w.s h he c = some out) : refused c.number out :=
      hrefused (serveArrive_barred hsup hfree hmatch hbars)
    refine ⟨fun h1 => hbarred (arriveBars_hold (hheld.mpr h1)),
      fun h1 h2 => hbarred (arriveBars_fire (mt hheld.mp h1) (hfire.mpr h2)),
      fun h1 h2 h3 => hbarred (arriveBars_climate (mt hheld.mp h1) (mt hfire.mp h2) (hdamp.mpr h3)),
      fun h1 h2 h3 h4 => hbarred (arriveBars_hatch (mt hheld.mp h1) (mt hfire.mp h2) (mt hdamp.mp h3) h4),
      fun h1 h2 h3 h4 => ?granted⟩
    case granted =>
      have hserve := serveArrive_granted (dst := dst) hsup hfree hmatch
        (arriveBars_none (mt hheld.mp h1) (mt hfire.mp h2) (mt hdamp.mp h3) h4)
      refine ⟨fun hd => exec_next_of_eq hexec (congrArg Work.finish ?_),
        fun hd => exec_next_of_eq hexec (congrArg Work.finish (hserve.trans (grantArrive_outbound hd)))⟩
      have hhe : w.s.hatch c.hatch = he := by rw [hh]; exact hentry
      rw [hserve, grantArrive_inbound hd, hhe, hs, hh]

end Sys2Proof.Proofs
end

section
/-! CASE, the condensation gate and the offer (R132 to R135); ACCEPT, CONFIRM and the unlock (R136 to R138). -/
namespace Sys2Proof.Machine

theorem clampT_eq (i : Int) : clampT i = min 850 (max (-400) i) := clampInt_eq_min_max (by decide) i

theorem clampRh_eq (n : Nat) : clampRh n = min 1000 n := by
  unfold clampRh clampNat
  split
  · omega
  · split <;> omega

namespace State

theorem gatePasses_inbound {s : State} {c : Consignment} (h : c.direction = .inbound) : s.gatePasses c = true
    ↔ ∃ t r, c.caseTemp = some t ∧ (s.climate (s.hatch c.hatch).inner).reading = some r
      ∧ r.td + (s.hatch c.hatch).margin ≤ t := by
  unfold gatePasses
  rw [h]
  dsimp only
  cases ht : c.caseTemp <;> cases hr : (s.climate (s.hatch c.hatch).inner).reading <;> simp

theorem gatePasses_outbound {s : State} {c : Consignment} (h : c.direction = .outbound) : s.gatePasses c = true
    ↔ (s.hatch c.hatch).outer = none ∨ ∃ z i o, (s.hatch c.hatch).outer = some z
      ∧ (s.climate (s.hatch c.hatch).inner).reading = some i ∧ (s.climate z).reading = some o
      ∧ o.td + (s.hatch c.hatch).margin ≤ i.t := by
  unfold gatePasses
  rw [h]
  dsimp only
  cases hz : (s.hatch c.hatch).outer with
  | none => simp
  | some z =>
    dsimp only
    cases hi : (s.climate (s.hatch c.hatch).inner).reading <;> cases ho : (s.climate z).reading <;> simp [ho]

end State

namespace Work

section
variable {w : Work} {c : Consignment}

/-! ### The gate and the offer -/

theorem runGate_passes (h : w.s.gatePasses c = true) : w.runGate c = w.enterOffered c := if_pos h

theorem runGate_fails (h : w.s.gatePasses c = false) : w.runGate c
    = (w.startStep c.hatch (w.s.hatch c.hatch).equalizeTimeout false false).enter { c with state := .equalizing } c.state :=
  if_neg (Bool.eq_false_iff.mp h)

theorem retryGate_passes (hs : c.state = .equalizing) (h : w.s.gatePasses c = true) : w.retryGate c = w.enterOffered c :=
  if_pos ⟨hs, h⟩

theorem retryGate_stays (h : c.state ≠ .equalizing ∨ w.s.gatePasses c = false) :
    w.retryGate c = w.mapState (fun u => u.setConsignment c) :=
  if_neg fun ⟨hs, hg⟩ => h.elim (fun hno => hno hs) (fun hno => nomatch hg.symm.trans hno)

/-- The frames and the timer of an offer, before its dwell (R135). -/
def offered (w : Work) (c : Consignment) : Work :=
  let he := w.s.hatch c.hatch
  let offer := [byteOf (c.number / 256), byteOf c.number, byteOf c.direction.code, byteOf c.items.length]
    ++ c.items.flatMap (fun i => field i.id 0 8)
  ((w.frame he.terminal 0x21 offer).frame he.witness 0x21 offer).startStep c.hatch he.acceptTimeout false false

theorem enterOffered_paced (h : (w.s.hatch c.hatch).mode = .paced) : w.enterOffered c
    = ((((w.offered c).setRuntime c.hatch (fun r => { r with dwellDone := false })).mapState (fun u =>
        u.setDwellTimer c.hatch ((u.dwellTimer c.hatch).start (w.s.hatch c.hatch).dwell false false))).enter
          { c with state := .offered, frozen := w.frozenFigures c } c.state).testUnlock
            { c with state := .offered, frozen := w.frozenFigures c } := by
  unfold enterOffered
  dsimp only
  rw [if_pos h]
  rfl

theorem enterOffered_unpaced (h : (w.s.hatch c.hatch).mode ≠ .paced) : w.enterOffered c
    = (((w.offered c).setRuntime c.hatch (fun r => { r with dwellDone := true })).enter
          { c with state := .offered, frozen := w.frozenFigures c } c.state).testUnlock
            { c with state := .offered, frozen := w.frozenFigures c } := by
  unfold enterOffered
  dsimp only
  rw [if_neg h]
  rfl

theorem frozenFigures_inbound {f : CaseFigures} {r : Reading} (hd : c.direction = .inbound)
    (hf : c.caseFigures = some f) (hr : (w.s.climate (w.s.hatch c.hatch).inner).reading = some r) :
    w.frozenFigures c = some ⟨f.meanT, f.meanRh, f.minutes, r.t, r.rh⟩ := by
  unfold frozenFigures
  rw [hd, hf, hr]

theorem frozenFigures_outbound (hd : c.direction = .outbound) : w.frozenFigures c = none := by
  unfold frozenFigures
  rw [hd]

/-! ### CASE -/

section
variable {h dst : Nat} {p : List Byte}

theorem serveCase_noConsignment (hnone : w.s.activeOn h = none) :
    w.serveCase h dst p = w.answerStep dst .caseFigures 0 .noConsignment := by
  unfold serveCase
  rw [hnone]

variable (hactive : w.s.activeOn h = some c)
include hactive

theorem serveCase_outbound (hd : c.direction = .outbound) :
    w.serveCase h dst p = w.answerStep dst .caseFigures c.number .notExpected := by
  unfold serveCase
  rw [hactive]
  exact if_pos hd

theorem serveCase_awaited (hd : c.direction = .inbound) (hs : c.state = .awaitCase) : w.serveCase h dst p
    = (w.answerStep dst .caseFigures c.number .recorded).runGate
        { c with caseTemp := some (clampT (signed2 p 0)), caseFigures := some (caseFiguresOf p) } := by
  unfold serveCase
  rw [hactive]
  refine (if_neg (by simp [hd])).trans ?_
  dsimp only
  rw [hs]

theorem serveCase_later (hd : c.direction = .inbound) (hs : c.state ≠ .awaitCase) : w.serveCase h dst p
    = (w.answerStep dst .caseFigures c.number .recorded).retryGate
        { c with caseTemp := some (clampT (signed2 p 0)) } := by
  unfold serveCase
  rw [hactive]
  refine (if_neg (by simp [hd])).trans ?_
  dsimp only
  cases hst : c.state with
  | awaitCase => exact absurd hst hs
  | waiting | equalizing | offered | unlocking | transfer | closing | aborting => rfl

end

/-! ### ACCEPT, CONFIRM and the unlock -/

section
variable {h dst : Nat} {k : StepKind} {p : List Byte} {mark : Consignment → Consignment}

theorem named_eq (hactive : w.s.activeOn h = some c) {n : Nat} :
    w.named h n = if c.number = n then some c else none := by
  unfold named
  rw [hactive]
  by_cases hn : c.number = n <;> simp [Option.filter, hn]

theorem named_none (hnone : w.s.activeOn h = none) {n : Nat} : w.named h n = none := by
  unfold named
  rw [hnone]
  rfl

theorem serveFlag_unnamed (hnone : w.named h (nat2 p 0) = none) :
    w.serveFlag h dst k p mark = w.answerStep dst k 0 .noConsignment := by
  unfold serveFlag
  rw [hnone]

theorem serveFlag_named (hnamed : w.named h (nat2 p 0) = some c) : w.serveFlag h dst k p mark
    = if c.state = .offered then
        ((w.answerStep dst k c.number .recorded).mapState (fun u => u.setConsignment (mark c))).testUnlock (mark c)
      else w.answerStep dst k c.number .notExpected := by
  unfold serveFlag
  rw [hnamed]

end

theorem ready_iff : w.ready c = true ↔ c.acceptReceived = true
    ∧ ((w.s.hatch c.hatch).mode = .witnessed → c.confirmReceived = true)
    ∧ (w.s.hatchRuntime c.hatch).dwellDone = true ∧ w.s.fireState (w.s.hatch c.hatch).inner = .quiet
    ∧ (∀ z, (w.s.hatch c.hatch).outer = some z → w.s.fireState z = .quiet) := by
  have houter : w.s.fireStateOf (w.s.hatch c.hatch).outer = .quiet
      ↔ ∀ z, (w.s.hatch c.hatch).outer = some z → w.s.fireState z = .quiet := by
    cases (w.s.hatch c.hatch).outer <;> simp [State.fireStateOf]
  simp only [ready, Bool.and_eq_true, Bool.or_eq_true, decide_eq_true_eq, houter, and_assoc, ne_eq, Decidable.imp_iff_not_or]

theorem testUnlock_ready (hs : c.state = .offered) (hr : w.ready c = true) : w.testUnlock c
    = (((w.frame (w.s.hatch c.hatch).unit 0x24 [1]).setRuntime c.hatch (fun r => { r with unlockRef := some c.number })
      ).startStep c.hatch (w.s.hatch c.hatch).openTimeout false false).enter { c with state := .unlocking } .offered := by
  have hunlock := (show w.testUnlock c = _ from if_pos ⟨hs, hr⟩)
  rw [hs] at hunlock
  exact hunlock

theorem testUnlock_notReady (h : c.state ≠ .offered ∨ ¬ w.ready c = true) : w.testUnlock c = w :=
  if_neg fun ⟨hs, hr⟩ => h.elim (fun hno => hno hs) (fun hno => hno hr)

end
end Work
end Sys2Proof.Machine

namespace Sys2Proof.Proofs
open Sys2Proof.Machine Sys2Proof.Machine.State Sys2Proof.Machine.Work

/-- Settles O38: CASE by the consignment's direction and state, the gate by its direction, the offer by the hatch's mode. -/
theorem caseGateAndOffer : Obligations.CaseGateAndOffer := by
  refine ⟨fun s entry p h he hserves hkind hhatch hterminal hlen => ?served,
    fun s c => ⟨gatePasses_inbound, gatePasses_outbound⟩, fun w c => ⟨runGate_passes, runGate_fails,
      fun frozen hfrozen => ?offer, fun f r => frozenFigures_inbound, frozenFigures_outbound⟩⟩
  case served =>
    intro dst w temp ends
    have htemp : ∀ i, clampT i = temp i := clampT_eq
    have hexec : ends (w.serveCase h dst p) := exec_next_of_eq (exec_caseReport hserves p (.inl hkind))
      (hatchFrame_served hhatch (decide_eq_true hlen) (decide_eq_true hterminal))
    have hends {v : Work} (hv : w.serveCase h dst p = v) : ends v := hv ▸ hexec
    refine ⟨fun hnone => hends (serveCase_noConsignment hnone), fun c hactive =>
      ⟨fun hd => hends (serveCase_outbound hactive hd), fun hd => ?inbound⟩⟩
    case inbound =>
      intro w1 c1
      have hc1 : { c with caseTemp := some (clampT (signed2 p 0)) } = c1 := by rw [htemp]
      have hfigures : caseFiguresOf p = ⟨temp (signed2 p 2), min 1000 (nat2 p 4), nat2 p 6⟩ := by
        rw [caseFiguresOf, htemp, clampRh_eq]
      refine ⟨fun hs => hends ?_, fun hs hg => hends ?_, fun hs hno => hends ?_⟩
      · rw [serveCase_awaited hactive hd hs, htemp, hfigures]
      · have hlater := serveCase_later (w := w) (dst := dst) (p := p) hactive hd (hs ▸ nofun)
        rw [hc1] at hlater
        exact hlater.trans (retryGate_passes hs hg)
      · have hlater := serveCase_later (w := w) (dst := dst) (p := p) hactive hd hs
        rw [hc1] at hlater
        exact hlater.trans (retryGate_stays hno)
  case offer =>
    subst hfrozen
    exact ⟨enterOffered_paced, enterOffered_unpaced⟩

/-- Settles O39: both frames are `serveFlag`, and the test of the unlock goes by `ready_iff`. -/
theorem acceptConfirmAndUnlock : Obligations.AcceptConfirmAndUnlock := by
  refine ⟨fun s entry p h he hserves hhatch hlen => ?frames, fun w c => ?unlock⟩
  case frames =>
    intro dst served
    have hserved {c : Instr} {k : StepKind} {mark : Consignment → Consignment}
        (hexec : exec c s = .next (((s.takeHanded c).begin.serveFlag h dst k p mark).finish)) : served c k mark := by
      unfold served
      intro w
      have hends {v : Work} (hv : w.serveFlag h dst k p mark = v) : exec c s = .next v.finish := hv ▸ hexec
      refine ⟨fun hnone => hends (serveFlag_unnamed (named_none hnone)), fun x hactive => ?_⟩
      have hnamed := named_eq (w := w) (n := nat2 p 0) hactive
      refine ⟨fun hn => hends (serveFlag_unnamed (hnamed.trans (if_neg hn))), fun hn hs => hends ?_,
        fun hn hs => hends ?_⟩
      · exact (serveFlag_named (hnamed.trans (if_pos hn))).trans (if_neg hs)
      · exact (serveFlag_named (hnamed.trans (if_pos hn))).trans (if_pos hs)
    refine ⟨fun hkind hterminal => hserved ?_, fun hkind hrole hwitness => hserved ?_⟩
    · exact exec_next_of_eq (exec_accept hserves p (.inl hkind))
        (hatchFrame_served hhatch (decide_eq_true hlen) (decide_eq_true hterminal))
    · exact exec_next_of_eq (exec_confirm hserves p (.inr ⟨hkind, hrole⟩))
        (hatchFrame_served hhatch (decide_eq_true hlen) (decide_eq_true hwitness))
  case unlock =>
    intro he ready
    have hready : w.ready c = true ↔ ready := ready_iff
    exact ⟨fun hs hr => testUnlock_ready hs (hready.mpr hr),
      fun hno => testUnlock_notReady (hno.imp_right (mt hready.mp))⟩

end Sys2Proof.Proofs
end

section
/-! Item scans, DONE, CLOSING and the chime (R93, R139 to R142). -/
namespace Sys2Proof.Machine

theorem tenthsUp_eq (n : Nat) : tenthsUp n = if n % 10 = 0 then n / 10 else n / 10 + 1 := by
  unfold tenthsUp
  split <;> omega

theorem missingOp_eq (d : Direction) :
    missingOp d = if d = .outbound then ItemOp.outboundMissing else .inboundMissing := by
  cases d <;> rfl

theorem revertOp_eq (d : Direction) :
    revertOp d = if d = .outbound then ItemOp.outboundRevert else .inboundRevert := by
  cases d <;> rfl

/-- The hold lies between the base hold and 4095 minutes, and is the base hold after no time at all (R140). -/
theorem acclimatizationHold_bounds (f : FrozenFigures) (e : ClassEntry) (h : e.baseHold ≤ 1023) :
    (e.baseHold ≤ acclimatizationHold f e ∧ acclimatizationHold f e ≤ 4095)
    ∧ (f.minutes = 0 → acclimatizationHold f e = e.baseHold) := by
  unfold acclimatizationHold
  dsimp only
  omega

namespace State

theorem chime_quiet {s : State} {z : Nat} (h : s.fireState z = .quiet) :
    s.chime z = s.originateAll .frs (s.soundersOf z) 0x23 [4, 0] := if_pos h

theorem chime_other {s : State} {z : Nat} (h : s.fireState z ≠ .quiet) : s.chime z = s := if_neg h

end State

namespace Work

/-! ### Item scans -/

section
variable {w : Work} {h dst : Nat} {d : Direction} {p : List Byte} {c : Consignment}

theorem serveItem_noConsignment (hnone : w.s.activeOn h = none) :
    w.serveItem h dst d p = w.answerScan dst p .noConsignment := by
  unfold serveItem
  rw [hnone]

variable (hactive : w.s.activeOn h = some c)
include hactive

theorem serveItem_wrongStation (hd : c.direction ≠ d) : w.serveItem h dst d p = w.answerScan dst p .wrongStation := by
  unfold serveItem
  rw [hactive]
  exact if_pos hd

variable (hd : c.direction = d)
include hd

theorem serveItem_notExpected (hs : c.state ≠ .transfer) : w.serveItem h dst d p = w.answerScan dst p .notExpected := by
  unfold serveItem
  rw [hactive]
  exact (if_neg (Classical.not_not.mpr hd)).trans (if_pos hs)

variable (hs : c.state = .transfer)
include hs

theorem serveItem_transfer : w.serveItem h dst d p = match c.items.find? (fun i => decide (i.id = field p 1 8)) with
    | none => w.answerScan dst p .notInConsignment
    | some i => if i.status = .pending then w.passItem dst p c i else w.answerScan dst p .duplicate := by
  unfold serveItem
  rw [hactive]
  exact (if_neg (Classical.not_not.mpr hd)).trans (if_neg (Classical.not_not.mpr hs))

theorem serveItem_unlisted (hno : ∀ i ∈ c.items, i.id ≠ field p 1 8) :
    w.serveItem h dst d p = w.answerScan dst p .notInConsignment := by
  have hfind : c.items.find? (fun i => decide (i.id = field p 1 8)) = none :=
    List.find?_eq_none.mpr fun i hi => by simp [hno i hi]
  rw [serveItem_transfer hactive hd hs, hfind]

theorem serveItem_listed {i : Item} (hi : c.items.find? (fun i => decide (i.id = field p 1 8)) = some i) :
    w.serveItem h dst d p = if i.status = .pending then w.passItem dst p c i else w.answerScan dst p .duplicate := by
  rw [serveItem_transfer hactive hd hs, hi]

end

/-- The consignment with the item passed. -/
def passed (c : Consignment) (i : Item) : Consignment :=
  { c with items := c.items.map (fun j => if j.id = i.id then { j with status := .passed } else j) }

/-- What a passed item gives before the test of the last one (R139). -/
def itemPassed (w : Work) (dst : Nat) (p : List Byte) (c : Consignment) (i : Item) : Work :=
  let w1 := (w.mapState (fun u => ((u.itemOp i.slot (w.passOp c i)).setConsignment (passed c i)).setStepTimer c.hatch
    (u.stepTimer c.hatch).trigger)).answerScan dst p .passed
  w1.notice (w1.s.handoverNotice (passed c i) 2 c.state.code c.state.code)

section
variable {w : Work} {dst : Nat} {p : List Byte} {c : Consignment} {i : Item}

theorem passItem_more (h : ∃ j ∈ (passed c i).items, j.status = .pending) :
    w.passItem dst p c i = w.itemPassed dst p c i :=
  if_pos (List.any_eq_true.mpr (h.imp fun _ ⟨hj, hs⟩ => ⟨hj, decide_eq_true hs⟩))

theorem passItem_last (h : ∀ j ∈ (passed c i).items, j.status ≠ .pending) :
    w.passItem dst p c i = (w.itemPassed dst p c i).enterClosing (passed c i) .allPassed := by
  refine if_neg fun hany => ?_
  obtain ⟨j, hj, hs⟩ := List.any_eq_true.mp hany
  exact h j hj (of_decide_eq_true hs)

theorem passOp_outbound (h : c.direction = .outbound) : w.passOp c i = .outboundPass := by
  unfold passOp
  rw [h]

theorem passOp_inbound {f : FrozenFigures} {r : MediaRec} (h : c.direction = .inbound) (hf : c.frozen = some f)
    (hr : w.s.mediaAt i.slot = some r) : w.passOp c i = .inboundPass (w.s.hatch c.hatch).inner
      (w.s.tmb.minuteClock + BitVec.ofNat 32 (acclimatizationHold f (w.s.classEntry r.cls))) := by
  unfold passOp
  rw [h, hf, hr]
  rfl

/-! ### DONE and CLOSING -/

theorem serveDone_unnamed {h : Nat} (hnone : w.named h (nat2 p 0) = none) :
    w.serveDone h dst p = w.answerStep dst .done 0 .noConsignment := by
  unfold serveDone
  rw [hnone]

theorem serveDone_named {h : Nat} (hnamed : w.named h (nat2 p 0) = some c) : w.serveDone h dst p
    = if c.state = .transfer then (w.answerStep dst .done c.number .recorded).endTransfer c .done
      else w.answerStep dst .done c.number .notExpected := by
  unfold serveDone
  rw [hnamed]

theorem serveDone_noConsignment {h : Nat} (hnone : w.s.activeOn h = none) :
    w.serveDone h dst p = w.answerStep dst .done 0 .noConsignment := serveDone_unnamed (named_none hnone)

theorem endTransfer_eq (w : Work) (c : Consignment) (cause : EndCause) : w.endTransfer c cause
    = (w.mapState (fun u => c.items.foldl (fun v i => if i.status = .pending then v.itemOp i.slot
        (if c.direction = .outbound then ItemOp.outboundMissing else .inboundMissing) else v) u)).enterClosing
          (missItems c) cause := by
  rw [← missingOp_eq]
  rfl

theorem closingPosition_locked (hp : (w.s.hatchRuntime c.hatch).position = .closedLocked)
    (hu : (w.s.hatchRuntime c.hatch).unitSilent = false) : w.closingPosition c
      = { w.remove c .complete with chimes := (w.remove c .complete).chimes ++ [(w.s.hatch c.hatch).inner] } := by
  unfold closingPosition
  dsimp only
  rw [hp]
  exact if_neg (Bool.eq_false_iff.mp hu)

theorem closingPosition_paced (hp : (w.s.hatchRuntime c.hatch).position = .closedUnlocked)
    (hm : (w.s.hatch c.hatch).mode = .paced) : w.closingPosition c
      = w.mapState (fun u =>
          u.setDwellTimer c.hatch ((u.dwellTimer c.hatch).start (w.s.hatch c.hatch).dwell false false)) := by
  unfold closingPosition
  dsimp only
  rw [hp]
  exact if_pos hm

theorem closingPosition_unpaced (hp : (w.s.hatchRuntime c.hatch).position = .closedUnlocked)
    (hm : (w.s.hatch c.hatch).mode ≠ .paced) :
    w.closingPosition c = w.frame (w.s.hatch c.hatch).unit 0x24 [0] := by
  unfold closingPosition
  dsimp only
  rw [hp]
  exact if_neg hm

theorem closingPosition_awaited (h : (w.s.hatchRuntime c.hatch).position = .opened
      ∨ (w.s.hatchRuntime c.hatch).position = .noReport
      ∨ ((w.s.hatchRuntime c.hatch).position = .closedLocked ∧ (w.s.hatchRuntime c.hatch).unitSilent = true)) :
    w.closingPosition c = w := by
  unfold closingPosition
  dsimp only
  rcases h with hp | hp | ⟨hp, hu⟩
  · rw [hp]
  · rw [hp]
  · rw [hp]
    exact if_pos hu

theorem closingPosition_fault (hp : (w.s.hatchRuntime c.hatch).position = .fault) :
    w.closingPosition c = w.abort c .hatchFault := by
  unfold closingPosition
  dsimp only
  rw [hp]

end
end Work
end Sys2Proof.Machine

namespace Sys2Proof.Proofs
open Sys2Proof.Machine Sys2Proof.Machine.State Sys2Proof.Machine.Work

/-- Settles O40: item scans are `serveItem`, DONE is `serveDone`, and CLOSING goes by the position of the hatch. -/
theorem transferAndClosing : Obligations.TransferAndClosing := by
  refine ⟨⟨fun s entry p h he hserves hhatch hlen hchars => ?scans, fun w dst p c i =>
      ⟨passItem_more, passItem_last, passOp_outbound, fun f r => passOp_inbound⟩, fun f e => ?hold⟩,
    fun s entry p h he hserves hstation hhatch hlen => ?done, fun w c cause => ⟨endTransfer_eq w c cause, rfl⟩,
    fun w c => ⟨closingPosition_locked, closingPosition_paced, closingPosition_unpaced, closingPosition_awaited,
      closingPosition_fault⟩, fun s z => ⟨chime_quiet, chime_other⟩⟩
  case scans =>
    intro dst served
    have hform : (decide (p.length = 9) && identFieldOk p 1) = true := by simp [identFieldOk_eq, hlen, hchars]
    have hserved {c : Instr} {d : Direction}
        (hexec : exec c s = .next (((s.takeHanded c).begin.serveItem h dst d p).finish)) : served c d := by
      unfold served
      intro w only
      have hends {v : Work} (hv : w.serveItem h dst d p = v) : exec c s = .next v.finish := hv ▸ hexec
      refine ⟨fun hnone => hends (serveItem_noConsignment hnone), fun x hactive =>
        ⟨fun hd => hends (serveItem_wrongStation hactive hd), fun hd hs => hends (serveItem_notExpected hactive hd hs),
          fun hd hs => ⟨fun hno => hends (serveItem_unlisted hactive hd hs hno), fun i hi => ?_⟩⟩⟩
      have hlisted := serveItem_listed (w := w) (dst := dst) hactive hd hs hi
      exact ⟨fun hpassed => hends (hlisted.trans (if_neg (hpassed ▸ nofun))),
        fun hpending => hends (hlisted.trans (if_pos hpending))⟩
    refine ⟨fun hkind hterminal hhead => hserved ?_, fun hkind hrole hwitness hhead => hserved ?_⟩
    · exact exec_next_of_eq (exec_scanHandover hserves p hkind hhead)
        (hatchFrame_served hhatch hform (decide_eq_true hterminal))
    · exact exec_next_of_eq (exec_scanReceive hserves p hkind hrole hhead)
        (hatchFrame_served hhatch hform (decide_eq_true hwitness))
  case hold =>
    intro up raw cap
    have hup : ∀ n, tenthsUp n = up n := tenthsUp_eq
    refine ⟨?_, fun h => (acclimatizationHold_bounds f e h).1, fun h => (acclimatizationHold_bounds f e h).2⟩
    simp only [acclimatizationHold, hup]
    rfl
  case done =>
    intro dst w ends
    have hserve (hsender : s.fromDoneStation (s.station entry) h he = true) {v : Work}
        (hv : w.serveDone h dst p = v) : ends v :=
      exec_next_of_eq (exec_doneStep hserves p hstation)
        (hv ▸ hatchFrame_served hhatch (decide_eq_true hlen) hsender)
    refine ⟨fun hnone => hserve ?_ (serveDone_noConsignment hnone), fun c hactive hsender => ?_⟩
    · unfold fromDoneStation
      rw [hnone]
    · have hfrom := (fromDoneStation_eq hactive).mpr hsender
      have hnamed := named_eq (w := w) (n := nat2 p 0) hactive
      exact ⟨fun hn => hserve hfrom (serveDone_unnamed (hnamed.trans (if_neg hn))),
        fun hn hs => hserve hfrom ((serveDone_named (hnamed.trans (if_pos hn))).trans (if_neg hs)),
        fun hn hs => hserve hfrom ((serveDone_named (hnamed.trans (if_pos hn))).trans (if_pos hs))⟩

end Sys2Proof.Proofs
end

section
/-! Aborts, removals and hatch positions (R34, R122, R126, R143 to R145). -/
namespace Sys2Proof.Machine

theorem positionOfPayload_eq (p : List Byte) : positionOfPayload p
    = if p = [0] then .closedLocked else if p = [1] then .closedUnlocked else if p = [2] then .opened else .fault := by
  match p with
  | [] => rfl
  | b :: c :: p => simp [positionOfPayload]
  | [b] =>
    have hcode : ∀ n : Byte, [b] = [n] ↔ b.toNat = n.toNat := fun n => by simp [BitVec.toNat_inj]
    have hcodes : (if [b] = [0] then Position.closedLocked else if [b] = [1] then .closedUnlocked
          else if [b] = [2] then .opened else .fault)
        = if b.toNat = 0 then .closedLocked else if b.toNat = 1 then .closedUnlocked
          else if b.toNat = 2 then .opened else .fault := by
      simp only [hcode]
      rfl
    unfold positionOfPayload
    rw [hcodes, if_neg (by simp), show nat1 [b] 0 = b.toNat from rfl]
    match b.toNat with
    | 0 | 1 | 2 | _ + 3 => rfl

theorem manualAfter_clear {r : HatchRuntime} (h : r.manual = false) (p : Position) : manualAfter r p = r :=
  if_neg (Bool.eq_false_iff.mp h)

theorem manualAfter_moves {r : HatchRuntime} (h : r.manual = true) {p : Position}
    (hp : p = .closedUnlocked ∨ p = .opened ∨ p = .fault) : manualAfter r p = { r with moved := true } := by
  refine (if_pos h).trans ?_
  rcases hp with rfl | rfl | rfl <;> rfl

theorem manualAfter_locked {r : HatchRuntime} (h : r.manual = true) : manualAfter r .closedLocked
    = if r.moved then { r with manual := false, moved := false } else r := if_pos h

theorem Work.ajar_iff (p : Position) : Work.ajar p = true ↔ p = .opened ∨ p = .closedUnlocked := by
  cases p <;> simp [Work.ajar]

namespace State

theorem itemOp_hoc (s : State) (slot : Nat) (op : ItemOp) : (s.itemOp slot op).hoc = s.hoc := by
  unfold itemOp
  split <;> rfl

theorem missPending_hoc (s : State) (c : Consignment) (op : ItemOp) : (s.missPending c op).hoc = s.hoc := by
  unfold missPending
  induction c.items generalizing s with
  | nil => rfl
  | cons i l ih =>
    refine (ih _).trans ?_
    dsimp only
    split
    · exact itemOp_hoc s i.slot op
    · rfl

theorem hatch_of_hatches {s t : State} (h : t.hoc.hatches = s.hoc.hatches) (i : Nat) : t.hatch i = s.hatch i := by
  simp only [hatch, h]

theorem hatchRuntime_of_runtime {s t : State} (h : t.hoc.runtime = s.hoc.runtime) (i : Nat) :
    t.hatchRuntime i = s.hatchRuntime i := by
  simp only [hatchRuntime, h]

end State

namespace Work

section
variable {w : Work} {c : Consignment}

/-! ### The hatch brought shut -/

theorem abortingPosition_shut (hp : (w.s.hatchRuntime c.hatch).position = .closedLocked)
    (hu : (w.s.hatchRuntime c.hatch).unitSilent = false) : w.abortingPosition c = w.remove c .aborted := by
  unfold abortingPosition
  dsimp only
  rw [hp]
  exact if_neg (Bool.eq_false_iff.mp hu)

theorem abortingPosition_unlocked (hp : (w.s.hatchRuntime c.hatch).position = .closedUnlocked) :
    w.abortingPosition c = w.lock c.hatch (w.s.hatchRuntime c.hatch).urgent := by
  unfold abortingPosition
  dsimp only
  rw [hp]

theorem lock_urgent {h : Nat} {urgent : Bool} (hu : urgent = true) :
    w.lock h urgent = { w with frames := w.frames ++ [.urgentLock (w.s.hatch h).unit] } := if_pos hu

theorem lock_ordinary {h : Nat} {urgent : Bool} (hu : urgent = false) :
    w.lock h urgent = w.frame (w.s.hatch h).unit 0x24 [0] := if_neg (Bool.eq_false_iff.mp hu)

theorem abortingPosition_awaited (h : (w.s.hatchRuntime c.hatch).position = .opened
      ∨ (w.s.hatchRuntime c.hatch).position = .fault ∨ (w.s.hatchRuntime c.hatch).position = .noReport
      ∨ ((w.s.hatchRuntime c.hatch).position = .closedLocked ∧ (w.s.hatchRuntime c.hatch).unitSilent = true)) :
    w.abortingPosition c = w := by
  unfold abortingPosition
  dsimp only
  rcases h with hp | hp | hp | ⟨hp, hu⟩
  · rw [hp]
  · rw [hp]
  · rw [hp]
  · rw [hp]
    exact if_pos hu

/-! ### Entry to ABORTING -/

/-- The record of a consignment that enters ABORTING (R143). -/
def aborted (c : Consignment) (why : AbortReason) : Consignment :=
  { missItems c with state := .aborting, abort := some (why, c.state) }

/-- What an abort does before it acts on the position of the hatch (R143). -/
def abortBegun (w : Work) (c : Consignment) (why : AbortReason) : Work :=
  ((((w.mapState (fun u => u.missPending c (revertOp c.direction))).mapState (fun u =>
      u.setDwellTimer c.hatch (u.dwellTimer c.hatch).stop)).setRuntime c.hatch
    (fun x => { x with urgent := decide (why = .fire), dwellDone := false })).enter (aborted c why) c.state).alert
      .handoverAborted c.hatch

theorem abortBegun_runtime (w : Work) (c : Consignment) (why : AbortReason) :
    (w.abortBegun c why).s.hatchRuntime c.hatch
      = { w.s.hatchRuntime c.hatch with urgent := decide (why = .fire), dwellDone := false } := by
  have hkept : (w.s.missPending c (revertOp c.direction)).hatchRuntime c.hatch = w.s.hatchRuntime c.hatch :=
    State.hatchRuntime_of_runtime (congrArg Hoc.runtime (State.missPending_hoc _ _ _)) _
  have hset := State.hatchRuntime_setHatchRuntime (w.s.missPending c (revertOp c.direction)) c.hatch
    { w.s.hatchRuntime c.hatch with urgent := decide (why = .fire), dwellDone := false } c.hatch
  rw [if_pos rfl] at hset
  rw [← hset, ← hkept]
  rfl

theorem abortBegun_hatch (w : Work) (c : Consignment) (why : AbortReason) :
    (w.abortBegun c why).s.hatch c.hatch = w.s.hatch c.hatch :=
  State.hatch_of_hatches (congrArg Hoc.hatches (State.missPending_hoc w.s c (revertOp c.direction))) c.hatch

theorem abort_eq (w : Work) (c : Consignment) (why : AbortReason) : w.abort c why
    = if (w.abortBegun c why).s.hatchKnownClosed c.hatch then (w.abortBegun c why).abortingPosition (aborted c why)
      else ((w.abortBegun c why).startStep c.hatch (w.s.hatch c.hatch).closeTimeout true false).abortingPosition
        (aborted c why) := by
  rw [← abortBegun_hatch w c why]
  rfl

theorem abortBegun_knownClosed (w : Work) (c : Consignment) (why : AbortReason) :
    (w.abortBegun c why).s.hatchKnownClosed c.hatch = true ↔ (w.s.hatchRuntime c.hatch).position = .closedLocked
      ∧ (w.s.hatchRuntime c.hatch).unitSilent = false := by
  rw [State.hatchKnownClosed_iff, abortBegun_runtime]

theorem abort_shut {why : AbortReason} (h : (w.s.hatchRuntime c.hatch).position = .closedLocked
      ∧ (w.s.hatchRuntime c.hatch).unitSilent = false) :
    w.abort c why = (w.abortBegun c why).remove (aborted c why) .aborted := by
  have hr := abortBegun_runtime w c why
  rw [abort_eq, if_pos ((abortBegun_knownClosed w c why).mpr h)]
  exact abortingPosition_shut ((congrArg HatchRuntime.position hr).trans h.1)
    ((congrArg HatchRuntime.unitSilent hr).trans h.2)

theorem abort_open {why : AbortReason} (h : ¬ ((w.s.hatchRuntime c.hatch).position = .closedLocked
      ∧ (w.s.hatchRuntime c.hatch).unitSilent = false)) : w.abort c why
    = ((w.abortBegun c why).startStep c.hatch (w.s.hatch c.hatch).closeTimeout true false).abortingPosition
        (aborted c why) := by
  rw [abort_eq, if_neg (mt (abortBegun_knownClosed w c why).mp h)]

/-! ### The rules of a change of position -/

section
variable {h : Nat} {old new : Position}

theorem positionRules_none (hnone : w.s.activeOn h = none) : w.positionRules h old new
    = if ajar new && !ajar old then w.forced h else w := by
  unfold positionRules
  rw [hnone]

/-- The position rules of a consignment beyond WAITING, by its state. -/
theorem positionRules_active (hc : w.s.activeOn h = some c) : w.positionRules h old new = match c.state with
    | .waiting => w
    | .awaitCase | .equalizing | .offered =>
      if ajar new && !ajar old then (w.forced h).abort c .hatchForced
      else if new = .fault then w.abort c .hatchFault
      else w
    | .unlocking =>
      if new = .opened then
        (w.startStep h (w.s.hatch h).transferTimeout false (w.s.hatch h).transferRetrigger).enter
          { c with state := .transfer } c.state
      else if new = .fault then w.abort c .hatchFault
      else w
    | .transfer => if new = .fault then w.abort c .hatchFault else w
    | .closing => w.closingPosition c
    | .aborting => w.abortingPosition c := by
  unfold positionRules
  rw [hc] <;> dsimp only <;> cases c.state <;> rfl

end
end
end Work

/-! ### POSITION -/

namespace State

section
variable {s : State} {entry : Nat}

theorem exec_position (hserves : s.serves entry) (hkind : (s.station entry).kind = .hatchUnit) (p : List Byte) :
    exec (.position entry p) s = .next (match s.hatchByUnit (s.station entry).addr with
      | some (h, he) => (s.takeHanded (.position entry p)).reportPosition h he (positionOfPayload p)
      | none => s.takeHanded (.position entry p)) :=
  congrArg Host.Outcome.next (take_eq hserves (decide_eq_true hkind) _ _)

theorem reportPosition_repeated {h : Nat} {he : HatchEntry} {new : Position} (hp : (s.hatchRuntime h).position = new) :
    s.reportPosition h he new
      = s.setHatchRuntime h (manualAfter { s.hatchRuntime h with position := new } new) := if_pos hp

theorem reportPosition_changed {h : Nat} {he : HatchEntry} {new : Position} (hp : (s.hatchRuntime h).position ≠ new) :
    s.reportPosition h he new
      = ((((s.setHatchRuntime h (manualAfter { s.hatchRuntime h with position := new } new)).regateRelease
          he.inner).begin).positionRules h (s.hatchRuntime h).position new).finish := if_neg hp

end
end State
end Sys2Proof.Machine

namespace Sys2Proof.Proofs
open Sys2Proof.Machine Sys2Proof.Machine.State Sys2Proof.Machine.Work

/-- Settles O41: an abort by whether the hatch is known to be closed, a POSITION by whether it is a change, and the rules of
a change by the consignment's state. -/
theorem positionsAbortsAndRemovals : Obligations.PositionsAbortsAndRemovals := by
  refine ⟨fun w c => ?aborts, fun s entry p hserves hkind => ?reports, fun r new =>
    ⟨fun h => manualAfter_clear h new, fun h hp => manualAfter_moves h hp, fun h hp hm => ?cleared, fun h hp hm => ?kept⟩,
    fun w h old new => ?rules⟩
  case aborts =>
    intro r shut
    refine ⟨fun why => ?_, fun hshut => abortingPosition_shut hshut.1 hshut.2,
      fun hp hu => (abortingPosition_unlocked hp).trans (lock_urgent hu),
      fun hp hu => (abortingPosition_unlocked hp).trans (lock_ordinary hu), abortingPosition_awaited,
      fun o => ⟨fun hs => if_pos hs, fun hs => if_neg hs⟩⟩
    intro missed c1 op w1 w2 w3
    have hop : revertOp c.direction = op := revertOp_eq c.direction
    have hw3 : w.abortBegun c why = w3 := by
      unfold abortBegun
      rw [hop]
      rfl
    rw [← hw3]
    exact ⟨abort_shut, abort_open⟩
  case cleared => rw [hp, manualAfter_locked h, if_pos hm]
  case kept => rw [hp, manualAfter_locked h, if_neg (Bool.eq_false_iff.mp hm)]
  case reports =>
    intro u new
    have hnew : positionOfPayload p = new := positionOfPayload_eq p
    have hexec := exec_position hserves hkind p
    rw [hnew] at hexec
    refine ⟨fun hnone => ?_, fun h he hhatch => ?_⟩
    · rw [hnone] at hexec
      exact hexec
    · rw [hhatch] at hexec
      exact ⟨fun hp => exec_next_of_eq hexec (reportPosition_repeated (s := u) hp),
        fun hp => exec_next_of_eq hexec (reportPosition_changed (s := u) hp)⟩
  case rules =>
    intro force w1
    have hforce : (ajar new && !ajar old) = true ↔ force := by
      simp only [Bool.and_eq_true, Bool.not_eq_true', ← Bool.not_eq_true, ajar_iff]
      exact Iff.rfl
    have hforced : w.forced h = w1 := rfl
    refine ⟨fun hnone => ⟨fun hf => (positionRules_none hnone).trans (if_pos (hforce.mpr hf)),
      fun hf => (positionRules_none hnone).trans (if_neg (mt hforce.mp hf))⟩, fun c hc => ?_⟩
    have hrules := positionRules_active (old := old) (new := new) hc
    refine ⟨fun hs => ?_, fun hs hp => ?_, fun hs hp => ?_, fun hs hp hp' => ?_, fun hs hp => ?_, fun hs => ?_,
      fun hs => ?_⟩
    · have hearly : w.positionRules h old new = if ajar new && !ajar old then (w.forced h).abort c .hatchForced
          else if new = .fault then w.abort c .hatchFault else w := by
        rcases hs with hs | hs | hs <;> rw [hs] at hrules <;> exact hrules
      exact ⟨fun hf => hearly.trans (if_pos (hforce.mpr hf)),
        fun hf hp => hearly.trans ((if_neg (mt hforce.mp hf)).trans (if_pos hp)),
        fun hf hp => hearly.trans ((if_neg (mt hforce.mp hf)).trans (if_neg hp))⟩
    · rw [hs] at hrules
      exact hrules.trans (if_pos hp)
    · rcases hs with hs | hs <;> rw [hs] at hrules
      · exact hrules.trans ((if_neg (hp ▸ nofun)).trans (if_pos hp))
      · exact hrules.trans (if_pos hp)
    · rw [hs] at hrules
      exact hrules.trans ((if_neg hp).trans (if_neg hp'))
    · rw [hs] at hrules
      exact hrules.trans (if_neg hp)
    · rw [hs] at hrules
      exact hrules
    · rw [hs] at hrules
      exact hrules

end Sys2Proof.Proofs
end

section
/-! Timer expiries and zone reports at the Handover Controller (R131, R146). -/
namespace Sys2Proof.Machine
namespace Work

section
variable {w : Work} {h : Nat}

theorem stepExpired_none (hnone : w.s.activeOn h = none) : w.stepExpired h = w := by
  unfold stepExpired
  rw [hnone]

theorem dwellExpired_none (hnone : w.s.activeOn h = none) : w.dwellExpired h = w := by
  unfold dwellExpired
  rw [hnone]

variable {c : Consignment} (hc : w.s.activeOn h = some c)
include hc

theorem stepExpired_timeout (hs : c.state = .awaitCase ∨ c.state = .offered ∨ c.state = .unlocking) :
    w.stepExpired h = w.abort c .timeout := by
  unfold stepExpired
  rw [hc]
  dsimp only
  rcases hs with hs | hs | hs <;> rw [hs]

theorem stepExpired_equalizing (hs : c.state = .equalizing) : w.stepExpired h = w.abort c .condensation := by
  unfold stepExpired
  rw [hc]
  dsimp only
  rw [hs]

theorem stepExpired_transfer (hs : c.state = .transfer) : w.stepExpired h = w.endTransfer c .transferTimeout := by
  unfold stepExpired
  rw [hc]
  dsimp only
  rw [hs]

theorem stepExpired_closing (hs : c.state = .closing) : w.stepExpired h
    = if (w.s.hatchRuntime h).position = .closedUnlocked then (w.alert .hatchOpenTooLong h).lock h false
      else w.alert .hatchOpenTooLong h := by
  unfold stepExpired
  rw [hc]
  dsimp only
  rw [hs]

theorem stepExpired_aborting (hs : c.state = .aborting) : w.stepExpired h
    = if (w.s.hatchRuntime h).position = .closedUnlocked then
        (w.alert .hatchOpenTooLong h).lock h (w.s.hatchRuntime h).urgent
      else w.alert .hatchOpenTooLong h := by
  unfold stepExpired
  rw [hc]
  dsimp only
  rw [hs]

theorem dwellExpired_offered (hs : c.state = .offered) :
    w.dwellExpired h = (w.setRuntime h (fun r => { r with dwellDone := true })).testUnlock c := by
  unfold dwellExpired
  rw [hc]
  dsimp only
  rw [hs]

theorem dwellExpired_closing (hs : c.state = .closing) : w.dwellExpired h
    = if (w.s.hatch h).mode = .paced ∧ (w.s.hatchRuntime h).position = .closedUnlocked then w.lock h false else w := by
  unfold dwellExpired
  rw [hc]
  dsimp only
  rw [hs]

theorem dwellExpired_other (hs : c.state ≠ .offered) (hs' : c.state ≠ .closing) : w.dwellExpired h = w := by
  unfold dwellExpired
  rw [hc]
  dsimp only
  cases hst : c.state with
  | offered => exact absurd hst hs
  | closing => exact absurd hst hs'
  | waiting | awaitCase | equalizing | unlocking | transfer | aborting => rfl

/-! ### Zone reports -/

variable {he : HatchEntry}

theorem zoneReportOn_evaluated : w.zoneReportOn .evaluated (h, he) = w.retryGate c := by
  unfold zoneReportOn
  dsimp only
  rw [hc]

theorem zoneReportOn_alarm : w.zoneReportOn (.fireChanged .alarm) (h, he)
    = if c.state = .aborting then w.setRuntime h (fun r => { r with urgent := true }) else w.abort c .fire := by
  unfold zoneReportOn
  dsimp only
  rw [hc]

theorem zoneReportOn_fire {new : FireState} (hnew : new ≠ .alarm) :
    w.zoneReportOn (.fireChanged new) (h, he) = w.testUnlock c := by
  unfold zoneReportOn
  dsimp only
  rw [hc]
  cases new with
  | alarm => exact absurd rfl hnew
  | quiet | preAlarm | releaseCountdown | released => rfl

theorem zoneReportOn_unmonitored (flag : Bool) : w.zoneReportOn (.unmonitoredChanged flag) (h, he) = w := by
  unfold zoneReportOn
  dsimp only
  rw [hc]

end

theorem zoneReportOn_none {w : Work} {h : Nat} (hnone : w.s.activeOn h = none) (he : HatchEntry) (report : ZoneReport) :
    w.zoneReportOn report (h, he) = w := by
  unfold zoneReportOn
  dsimp only
  rw [hnone]

end Work

namespace State

section
variable {s : State}

theorem exec_stepTimerExpiry {h : Nat} (hhanded : Instr.stepTimerExpiry h ∈ s.handed) :
    exec (.stepTimerExpiry h) s = .next ((((s.takeHanded (.stepTimerExpiry h)).setStepTimer h
      { s.stepTimer h with pending := false }).begin.stepExpired h).finish) :=
  congrArg Host.Outcome.next (takeEvent_eq hhanded _)

theorem exec_dwellTimerExpiry {h : Nat} (hhanded : Instr.dwellTimerExpiry h ∈ s.handed) :
    exec (.dwellTimerExpiry h) s = .next ((((s.takeHanded (.dwellTimerExpiry h)).setDwellTimer h
      { s.dwellTimer h with pending := false }).begin.dwellExpired h).finish) :=
  congrArg Host.Outcome.next (takeEvent_eq hhanded _)

theorem exec_zoneReport {z : Nat} {report : ZoneReport} (hhanded : Instr.zoneReport z report ∈ s.handed) :
    exec (.zoneReport z report) s
      = .next ((s.takeHanded (.zoneReport z report)).takeZoneReport z report) :=
  congrArg Host.Outcome.next (takeEvent_eq hhanded _)

end
end State
end Sys2Proof.Machine

namespace Sys2Proof.Proofs
open Sys2Proof.Machine Sys2Proof.Machine.State Sys2Proof.Machine.Work

/-- Settles O42: each event by the state of the consignment beyond WAITING. -/
theorem expiriesAndZoneReports : Obligations.ExpiriesAndZoneReports := by
  refine ⟨fun s h hhanded => ?step, fun s h hhanded => ?dwell,
    fun s z report hhanded => ⟨fun h => ?config, fun h => ?active⟩,
    fun w h he report => ⟨fun hnone => zoneReportOn_none hnone he report, fun c hc =>
      ⟨fun hs hg => (zoneReportOn_evaluated hc).trans (retryGate_passes hs hg),
        fun hno => (zoneReportOn_evaluated hc).trans (retryGate_stays hno),
        fun hs => (zoneReportOn_alarm hc).trans (if_neg hs), fun hs => (zoneReportOn_alarm hc).trans (if_pos hs),
        fun new hnew => zoneReportOn_fire hc hnew, zoneReportOn_unmonitored hc⟩⟩⟩
  case step =>
    intro u w r ends
    have hends {v : Work} (hv : w.stepExpired h = v) : ends v :=
      exec_next_of_eq (exec_stepTimerExpiry hhanded) (congrArg Work.finish hv)
    refine ⟨fun hnone => hends (stepExpired_none hnone), fun c hc => ⟨fun hs => hends (stepExpired_timeout hc hs),
      fun hs => hends (stepExpired_equalizing hc hs), fun hs => hends (stepExpired_transfer hc hs), fun hs => ?_⟩⟩
    intro w1
    refine ⟨fun hp => hends ?_, fun hp hno => hends ?_, fun hp hs' hu => hends ?_⟩
    · rcases hs with hs | hs
      · exact (stepExpired_closing hc hs).trans (if_neg hp)
      · exact (stepExpired_aborting hc hs).trans (if_neg hp)
    · rcases hs with hs | hs
      · exact (stepExpired_closing hc hs).trans ((if_pos hp).trans (lock_ordinary rfl))
      · have hu : r.urgent = false := hno.resolve_left (hs ▸ nofun)
        exact (stepExpired_aborting hc hs).trans ((if_pos hp).trans (lock_ordinary hu))
    · exact (stepExpired_aborting hc hs').trans ((if_pos hp).trans (lock_urgent hu))
  case dwell =>
    intro u w ends
    have hends {v : Work} (hv : w.dwellExpired h = v) : ends v :=
      exec_next_of_eq (exec_dwellTimerExpiry hhanded) (congrArg Work.finish hv)
    exact ⟨fun hnone => hends (dwellExpired_none hnone), fun c hc => ⟨fun hs => hends (dwellExpired_offered hc hs),
      fun hs hm hp => hends ((dwellExpired_closing hc hs).trans (if_pos ⟨hm, hp⟩)),
      fun hs hno => hends ((dwellExpired_closing hc hs).trans
        (if_neg fun h => hno.elim (fun hn => hn h.1) (fun hn => hn h.2))),
      fun hs hs' => hends (dwellExpired_other hc hs hs')⟩⟩
  case config => exact exec_next_of_eq (exec_zoneReport hhanded) (if_neg (Bool.eq_false_iff.mp h))
  case active => exact exec_next_of_eq (exec_zoneReport hhanded) (if_pos h)

end Sys2Proof.Proofs
end

section
/-! CONSIGN, CONSIGN CANCEL and the end of a consignment life (R124 to R126). -/
namespace Sys2Proof.Machine

theorem consignOp_eq (d : Direction) (n : Nat) :
    consignOp d n = if d = .outbound then .outboundConsign n else .inboundConsign n := by
  cases d <;> rfl

theorem Direction.ofCode_eq (d : Nat) :
    Direction.ofCode d = if d ≤ 1 then some (if d = 0 then .outbound else .inbound) else none := by
  match d with
  | 0 | 1 | _ + 2 => rfl

namespace State

/-! ### The checks of the items -/

/-- An identifier that passes the item checks of CONSIGN, but for a repetition (R124). -/
def ConsignFits (s : State) (d : Direction) (id : Ident) : Prop :=
  ∃ slot r, s.mediaById id = some (slot, r) ∧ (d = .outbound → r.custody = .shelved ∧ r.manual = false ∧ r.agent = false)
    ∧ (d = .inbound → r.custody = .out)

/-- The item booked for an identifier. -/
def bookedItem (s : State) (id : Ident) : Item := ⟨id, ((s.mediaById id).map Prod.fst).getD 0, .pending⟩

section
variable {s : State} {d : Direction} {n : Nat} {seen : List Ident} {id : Ident} {rest : List Ident}

theorem consignItems_notFound (h : s.mediaById id = none) :
    s.consignItems d n seen (id :: rest) = .error (.notFound n) := by
  rw [consignItems, h]

section
variable {slot : Nat} {r : MediaRec} (hfound : s.mediaById id = some (slot, r))
include hfound

theorem consignItems_duplicate (h : id ∈ seen) :
    s.consignItems d n seen (id :: rest) = .error (.duplicateItem n) := by
  rw [consignItems, hfound]
  exact if_pos h

variable (hnew : id ∉ seen)
include hnew

theorem consignItems_wrongState
    (h : (d = .outbound ∧ r.custody ≠ .shelved) ∨ (d = .inbound ∧ r.custody ≠ .out)) :
    s.consignItems d n seen (id :: rest) = .error (.wrongState n r.custody.code) := by
  rw [consignItems, hfound]
  refine (if_neg hnew).trans ?_
  rcases h with h | h
  · exact if_pos h
  · obtain ⟨rfl, hc⟩ := h
    exact (if_neg nofun).trans ((if_neg nofun).trans (if_pos ⟨rfl, hc⟩))

theorem consignItems_held (hd : d = .outbound) (hc : r.custody = .shelved) (h : r.manual = true ∨ r.agent = true) :
    s.consignItems d n seen (id :: rest) = .error (.held n) := by
  rw [consignItems, hfound]
  exact (if_neg hnew).trans ((if_neg fun hno => hno.2 hc).trans (if_pos ⟨hd, (MediaRec.held_iff r).mpr h⟩))

end

theorem consignItems_fits (hnew : id ∉ seen) (hfits : s.ConsignFits d id) : s.consignItems d n seen (id :: rest)
    = (s.consignItems d (n + 1) (id :: seen) rest).map (s.bookedItem id :: ·) := by
  obtain ⟨slot, r, hfound, hout, hin⟩ := hfits
  have hitem : s.bookedItem id = ⟨id, slot, .pending⟩ := by rw [bookedItem, hfound]; rfl
  have hheld : ¬ (d = .outbound ∧ r.held = true) := by
    rintro ⟨hd, hheld⟩
    obtain ⟨-, hm, ha⟩ := hout hd
    simp [MediaRec.held, hm, ha] at hheld
  rw [consignItems, hfound, hitem]
  refine (if_neg hnew).trans ((if_neg fun h => h.2 (hout h.1).1).trans ((if_neg hheld).trans
    ((if_neg fun h => h.2 (hin h.1)).trans ?_)))
  cases s.consignItems d (n + 1) (id :: seen) rest <;> rfl

end

/-- The items before the first that fails a check. -/
theorem consignItems_front {s : State} {d : Direction} {front : List Ident} (rest : List Ident) {n : Nat}
    {seen : List Ident} (hnodup : front.Nodup) (hseen : ∀ x ∈ front, x ∉ seen) (hfits : ∀ x ∈ front, s.ConsignFits d x) :
    s.consignItems d n seen (front ++ rest)
      = (s.consignItems d (n + front.length) (front.reverse ++ seen) rest).map (front.map s.bookedItem ++ ·) := by
  induction front generalizing n seen with
  | nil =>
    simp only [List.nil_append, List.length_nil, Nat.add_zero, List.reverse_nil, List.map_nil]
    cases s.consignItems d n seen rest <;> rfl
  | cons id front ih =>
    rw [List.nodup_cons] at hnodup
    obtain ⟨hid, hnodup⟩ := hnodup
    have hseen' : ∀ x ∈ front, x ∉ id :: seen := fun x hx hmem => by
      rcases List.mem_cons.mp hmem with rfl | hmem
      · exact hid hx
      · exact hseen x (List.mem_cons_of_mem _ hx) hmem
    rw [List.cons_append, consignItems_fits (hseen id List.mem_cons_self) (hfits id List.mem_cons_self),
      ih hnodup hseen' (fun x hx => hfits x (List.mem_cons_of_mem _ hx)), List.length_cons, List.reverse_cons,
      List.append_assoc, List.singleton_append, List.map_cons, Nat.add_right_comm, ← Nat.add_assoc]
    cases s.consignItems d (n + front.length + 1) (front.reverse ++ id :: seen) rest <;> rfl

/-- The first item that fails decides the refusal. -/
theorem consignItems_fails {s : State} {d : Direction} {front rest : List Ident} {why : ItemRefusal}
    (hnodup : front.Nodup) (hfits : ∀ x ∈ front, s.ConsignFits d x)
    (hrest : s.consignItems d (1 + front.length) (front.reverse ++ []) rest = .error why) :
    s.consignItems d 1 [] (front ++ rest) = .error why := by
  rw [consignItems_front rest hnodup (fun x _ => List.not_mem_nil) hfits, hrest]
  rfl

theorem consignItems_ok {s : State} {d : Direction} {ids : List Ident} (hnodup : ids.Nodup)
    (hfits : ∀ x ∈ ids, s.ConsignFits d x) : s.consignItems d 1 [] ids = .ok (ids.map s.bookedItem) := by
  have hall := consignItems_front (n := 1) [] hnodup (fun x _ => List.not_mem_nil) hfits
  rw [List.append_nil] at hall
  rw [hall, consignItems]
  exact congrArg Except.ok (List.append_nil _)

/-! ### CONSIGN -/

/-- The form test of CONSIGN. -/
def ConsignFormed (d : Nat) (courier : Ident) (ids : List Ident) : Prop :=
  d ≤ 1 ∧ (∀ x ∈ courier :: ids, x.length = 8 ∧ x.all identChar = true)

theorem consignFormed_ids (courier : Ident) (ids : List Ident) : (identOk courier && ids.all identOk) = true
    ↔ ∀ x ∈ courier :: ids, x.length = 8 ∧ x.all identChar = true := by
  simp only [Bool.and_eq_true, List.all_eq_true, identOk_iff, List.forall_mem_cons]

section
variable {s : State} (tag : Byte) {n d h : Nat} {courier : Ident} {ids : List Ident}

theorem exec_consign (hready : s.ready) : exec (.consign tag n d h courier ids) s
    = .next ((s.requested (.consign tag n d h courier ids)).consignRequest tag n d h courier ids) :=
  congrArg Host.Outcome.next (serve_eq hready _ _ _ _)

theorem consignRequest_malformed (hform : ¬ ConsignFormed d courier ids) :
    s.consignRequest tag n d h courier ids = s.reply 0x30 tag .malformed [] := by
  unfold consignRequest
  rw [Direction.ofCode_eq]
  by_cases hd : d ≤ 1
  · have hids : (identOk courier && ids.all identOk) = false := by
      rw [← Bool.not_eq_true, consignFormed_ids]
      exact fun hids => hform ⟨hd, hids⟩
    rw [if_pos hd, hids]
    rfl
  · rw [if_neg hd]
    rfl

variable (hform : ConsignFormed d courier ids)
include hform

/-- CONSIGN after its form test. -/
theorem consignRequest_formed : s.consignRequest tag n d h courier ids =
    if 8 ≤ s.hoc.consignments.length then s.reply 0x30 tag .full []
    else if (s.consignment n).isSome then s.replyRefused 0x30 tag .duplicate []
    else if n = 0 ∨ ids = [] ∨ 24 < ids.length ∨ 3 < h then s.reply 0x30 tag .range []
    else if (s.hatch h).unit = 0 then s.replyRefused 0x30 tag .noHatch []
    else match s.consignItems (if d = 0 then .outbound else .inbound) 1 [] ids with
      | .error (.notFound n) => s.reply 0x30 tag .notFound (enc1 n)
      | .error (.duplicateItem n) => s.replyRefused 0x30 tag .duplicateItem (enc1 n)
      | .error (.wrongState n st) => s.replyRefused 0x30 tag .state (enc1 n ++ enc1 st)
      | .error (.held n) => s.replyRefused 0x30 tag .hold (enc1 n)
      | .ok items => (s.book n (if d = 0 then .outbound else .inbound) h courier items).reply 0x30 tag .done [] := by
  obtain ⟨hd, hids⟩ := hform
  unfold consignRequest
  rw [Direction.ofCode_eq, if_pos hd, (consignFormed_ids courier ids).mpr hids]
  rfl

section
variable (hroom : ¬ 8 ≤ s.hoc.consignments.length)
include hroom

theorem consignRequest_known (hknown : s.consignment n ≠ none) :
    s.consignRequest tag n d h courier ids = s.replyRefused 0x30 tag .duplicate [] :=
  (consignRequest_formed tag hform).trans ((if_neg hroom).trans (if_pos (Option.isSome_iff_ne_none.mpr hknown)))

variable (hunknown : ¬ s.consignment n ≠ none)
include hunknown

theorem consignRequest_range (hrange : n = 0 ∨ ids = [] ∨ 24 < ids.length ∨ 3 < h) :
    s.consignRequest tag n d h courier ids = s.reply 0x30 tag .range [] :=
  (consignRequest_formed tag hform).trans ((if_neg hroom).trans
    ((if_neg (mt Option.isSome_iff_ne_none.mp hunknown)).trans (if_pos hrange)))

variable (hrange : ¬ (n = 0 ∨ ids = [] ∨ 24 < ids.length ∨ 3 < h))
include hrange

theorem consignRequest_noHatch (hhatch : (s.hatch h).unit = 0) :
    s.consignRequest tag n d h courier ids = s.replyRefused 0x30 tag .noHatch [] :=
  (consignRequest_formed tag hform).trans ((if_neg hroom).trans
    ((if_neg (mt Option.isSome_iff_ne_none.mp hunknown)).trans ((if_neg hrange).trans (if_pos hhatch))))

/-- CONSIGN with all but its items checked. -/
theorem consignRequest_items (hhatch : (s.hatch h).unit ≠ 0) : s.consignRequest tag n d h courier ids =
    match s.consignItems (if d = 0 then .outbound else .inbound) 1 [] ids with
      | .error (.notFound n) => s.reply 0x30 tag .notFound (enc1 n)
      | .error (.duplicateItem n) => s.replyRefused 0x30 tag .duplicateItem (enc1 n)
      | .error (.wrongState n st) => s.replyRefused 0x30 tag .state (enc1 n ++ enc1 st)
      | .error (.held n) => s.replyRefused 0x30 tag .hold (enc1 n)
      | .ok items => (s.book n (if d = 0 then .outbound else .inbound) h courier items).reply 0x30 tag .done [] :=
  (consignRequest_formed tag hform).trans ((if_neg hroom).trans
    ((if_neg (mt Option.isSome_iff_ne_none.mp hunknown)).trans ((if_neg hrange).trans (if_neg hhatch))))

end
end

theorem book_eq (s : State) (n : Nat) (d : Direction) (h : Nat) (courier : Ident) (items : List Item) :
    s.book n d h courier items = (items.foldl (fun v i => v.itemOp i.slot
        (if d = .outbound then .outboundConsign n else .inboundConsign n)) s).addConsignment
      ⟨n, d, h, courier, s.tmb.minuteClock, .waiting, items, false, false, none, none, none, none, none⟩ := by
  rw [← consignOp_eq]
  rfl

theorem hatchQueue_addConsignment (s : State) (c : Consignment) (h : Nat) : (s.addConsignment c).hatchQueue h
    = s.hatchQueue h ++ if h = c.hatch then [c.number] else [] := by
  rw [hatchQueue, (addConsignment_fields s c).2.2.2.2.2.2.2.2.2.2.2.2.2, List.filter_append, List.map_append]
  by_cases hh : h = c.hatch
  · simp [hatchQueue, hh]
  · simp [hatchQueue, hh, Ne.symm hh]

/-! ### CONSIGN CANCEL and the minute tick -/

section
variable {s : State} (tag : Byte) {n : Nat}

theorem exec_consignCancel (hready : s.ready) : exec (.consignCancel tag n) s
    = .next ((s.requested (.consignCancel tag n)).consignCancelRequest tag n) :=
  congrArg Host.Outcome.next (serve_eq hready _ _ _ _)

theorem consignCancelRequest_notFound (h : s.consignment n = none) :
    s.consignCancelRequest tag n = s.reply 0x31 tag .notFound [] := by
  unfold consignCancelRequest
  rw [h]
  rfl

variable {c : Consignment} (hc : s.consignment n = some c)
include hc

theorem consignCancelRequest_waiting (hs : c.state = .waiting) : s.consignCancelRequest tag n
    = ((s.begin.dropWaiting c .cancelled).finish).reply 0x31 tag .done [0x0B] := by
  unfold consignCancelRequest
  rw [hc]
  dsimp only
  rw [hs]
  rfl

theorem consignCancelRequest_aborting (hs : c.state = .aborting) : s.consignCancelRequest tag n
    = ((s.begin.remove c .aborted).finish).reply 0x31 tag .done [0x09] := by
  unfold consignCancelRequest
  rw [hc]
  dsimp only
  rw [hs]
  rfl

theorem consignCancelRequest_active (hs : c.state ≠ .waiting) (hs' : c.state ≠ .aborting) : s.consignCancelRequest tag n
    = ((s.begin.abort c .cancelled).finish).reply 0x31 tag .done [0x07] := by
  unfold consignCancelRequest
  rw [hc]
  dsimp only
  cases hst : c.state with
  | waiting => exact absurd hst hs
  | aborting => exact absurd hst hs'
  | awaitCase | equalizing | offered | unlocking | transfer | closing => rfl

end

theorem handoverMinute_active {s : State} (h : s.active = true) : s.handoverMinute = ((s.hoc.consignments.filter (fun c =>
    decide (c.state = .waiting) && decide ((s.hatch c.hatch).life ≠ 0)
      && decide ((s.hatch c.hatch).life ≤ (s.tmb.minuteClock - c.created).toNat))).foldl
        (fun w c => w.dropWaiting c .expired) s.begin).finish := if_pos h

end State

theorem Work.dropWaiting_eq (w : Work) (c : Consignment) (o : HandoverEnd) : w.dropWaiting c o
    = (w.mapState (fun u => c.items.foldl (fun v i => if i.status = .pending then v.itemOp i.slot
        (if c.direction = .outbound then ItemOp.outboundRevert else .inboundRevert) else v) u)).remove (missItems c) o := by
  rw [← revertOp_eq]
  rfl

end Sys2Proof.Machine

namespace Sys2Proof.Proofs
open Sys2Proof.Machine Sys2Proof.Machine.State

/-- Settles O43: CONSIGN in the order of its tests, its items by the first that fails (`consignItems_fails`) or by all passing
(`consignItems_ok`). -/
theorem consignAndCancel : Obligations.ConsignAndCancel := by
  refine ⟨fun s tag n d h courier ids hready => ?consign, fun s c => ⟨rfl, ?queue, fun h hh => ?others⟩,
    fun s tag n hready => ?cancel, fun s => ⟨handoverMinute_config, handoverMinute_active⟩, Work.dropWaiting_eq⟩
  case queue => rw [hatchQueue_addConsignment, if_pos rfl]
  case others => rw [hatchQueue_addConsignment, if_neg hh, List.append_nil]
  case cancel =>
    intro u
    have hexec := exec_consignCancel (n := n) tag hready
    have hsame : u.consignment n = s.consignment n := by
      obtain ⟨-, -, -, -, -, -, -, -, -, -, -, -, hconsignment, -⟩ := requested_accessors s (.consignCancel tag n)
      exact congrFun hconsignment n
    exact ⟨fun hnone => exec_next_of_eq hexec (consignCancelRequest_notFound tag (hsame.trans hnone)),
      fun c hc => ⟨fun hs => exec_next_of_eq hexec (consignCancelRequest_waiting tag (hsame.trans hc) hs),
        fun hs => exec_next_of_eq hexec (consignCancelRequest_aborting tag (hsame.trans hc) hs),
        fun hs hs' => exec_next_of_eq hexec (consignCancelRequest_active tag (hsame.trans hc) hs hs')⟩⟩
  case consign =>
    intro c u formed dir full known range
    have hexec : exec c s = .next (u.consignRequest tag n d h courier ids) := exec_consign tag hready
    obtain ⟨-, hnow, -, -, -, -, -, -, hmedia, -, hhatch, -, hconsignment, -⟩ := requested_accessors s c
    obtain ⟨-, -, -, -, -, -, hhoc, -⟩ := requested_fields s c
    have hfull : 8 ≤ u.hoc.consignments.length ↔ full := by rw [show u.hoc = s.hoc from hhoc]
    have hknown : u.consignment n ≠ none ↔ known := by rw [show u.consignment n = _ from congrFun hconsignment n]
    have hunit : (u.hatch h).unit = (s.hatch h).unit := congrArg HatchEntry.unit (congrFun hhatch h)
    have hfits : ∀ x, u.ConsignFits dir x ↔ s.ConsignFits dir x := fun x => by
      rw [ConsignFits, ConsignFits, show u.mediaById = s.mediaById from hmedia]
    refine ⟨fun hform => exec_next_of_eq hexec (consignRequest_malformed tag hform),
      fun hform h1 => exec_next_of_eq hexec ((consignRequest_formed tag hform).trans (if_pos (hfull.mpr h1))),
      fun hform h1 h2 => exec_next_of_eq hexec
        (consignRequest_known tag hform (mt hfull.mp h1) (hknown.mpr h2)),
      fun hform h1 h2 h3 => exec_next_of_eq hexec
        (consignRequest_range tag hform (mt hfull.mp h1) (mt hknown.mp h2) h3),
      fun hform h1 h2 h3 h4 => exec_next_of_eq hexec
        (consignRequest_noHatch tag hform (mt hfull.mp h1) (mt hknown.mp h2) h3 (hunit.trans h4)),
      fun hform h1 h2 h3 h4 => ?items⟩
    intro fits
    have hitems := consignRequest_items tag hform (mt hfull.mp h1) (mt hknown.mp h2) h3 (fun heq => h4 (hunit.symm.trans heq))
    refine ⟨fun front id back hids hfront hnodup => ?_, fun hall hnodup => ?_⟩
    · intro at1
      have hfront' : ∀ x ∈ front, u.ConsignFits dir x := fun x hx => (hfits x).mpr (hfront x hx)
      have hat : 1 + front.length = front.length + 1 := Nat.add_comm _ _
      have hfails {why : ItemRefusal}
          (hrest : u.consignItems dir (front.length + 1) (front.reverse ++ []) (id :: back) = .error why) :
          u.consignItems dir 1 [] ids = .error why := by
        rw [hids]
        exact consignItems_fails hnodup hfront' (hat ▸ hrest)
      have hseen : id ∈ front.reverse ++ [] ↔ id ∈ front := by simp
      have hfound : u.mediaById id = s.mediaById id := congrFun hmedia id
      refine ⟨fun hnone => ?_, fun hsome hdup => ?_, fun slot r hr hnew => ⟨fun hstate => ?_, fun hd hcust hheld => ?_⟩⟩
      · rw [show u.consignItems (if d = 0 then .outbound else .inbound) 1 [] ids = _ from
          hfails (consignItems_notFound (hfound.trans hnone))] at hitems
        exact exec_next_of_eq hexec hitems
      · obtain ⟨⟨slot, r⟩, hr⟩ := Option.ne_none_iff_exists'.mp hsome
        rw [show u.consignItems (if d = 0 then .outbound else .inbound) 1 [] ids = _ from
          hfails (consignItems_duplicate (hfound.trans hr) (hseen.mpr hdup))] at hitems
        exact exec_next_of_eq hexec hitems
      · rw [show u.consignItems (if d = 0 then .outbound else .inbound) 1 [] ids = _ from
          hfails (consignItems_wrongState (hfound.trans hr) (mt hseen.mp hnew) hstate)] at hitems
        exact exec_next_of_eq hexec hitems
      · rw [show u.consignItems (if d = 0 then .outbound else .inbound) 1 [] ids = _ from
          hfails (consignItems_held (hfound.trans hr) (mt hseen.mp hnew) hd hcust hheld)] at hitems
        exact exec_next_of_eq hexec hitems
    · refine ⟨ids.map u.bookedItem, ?_, fun i hi => ?_, ?_⟩
      · rw [List.map_map]
        exact List.map_id _
      · obtain ⟨x, hx, rfl⟩ := List.mem_map.mp hi
        obtain ⟨slot, r, hr, -⟩ := hall x hx
        have hr' : u.mediaById x = some (slot, r) := (congrFun hmedia x).trans hr
        refine ⟨rfl, ?_⟩
        simp only [bookedItem, hr', hr, Option.map_some, Option.getD_some]
      · rw [show u.consignItems (if d = 0 then .outbound else .inbound) 1 [] ids = _ from
          consignItems_ok hnodup (fun x hx => (hfits x).mpr (hall x hx))] at hitems
        refine exec_next_of_eq hexec (hitems.trans ?_)
        dsimp only
        rw [book_eq, show u.tmb.minuteClock = s.tmb.minuteClock from hnow]

end Sys2Proof.Proofs
end

section
/-!
What the shared operations of one Handover Controller event leave alone: its frames, notices, alerts and chimes are all
reports or frames bound for the field.
-/
namespace Sys2Proof.Machine

theorem originate_sent (s : State) (o : Origin) (dst kind : Nat) (p : List Byte) : Sent s (s.originate o dst kind p) :=
  offerOrdinary_sent s _

theorem queueHoc_sent (s : State) (f : HocFrame) : Sent s (s.queueHoc f) := by
  cases f with
  | ordinary dst kind p => exact originate_sent s .hoc dst kind p
  | urgentLock unit => exact queueUrgent_sent s unit _ _

theorem chime_sent (s : State) (h : Nat) : Sent s (s.chime h) := by
  unfold State.chime
  split
  · exact originateAll_sent s _ _ _ _
  · exact Sent.rfl' s

theorem finish_sent (w : Work) : Sent w.s w.finish := by
  unfold Work.finish
  have hframes := foldl_keeps (P := Sent w.s) _ (fun t f ht => ht.trans (queueHoc_sent t f)) w.frames w.s (Sent.rfl' w.s)
  have hnotices := foldl_keeps (P := Sent w.s) _ (fun t p ht => ht.trans (offerNotice_reported t p).sent) w.notices _ hframes
  have halerts := foldl_keeps (P := Sent w.s) _ (fun t (a : AlertKind × Nat) ht =>
    ht.trans (raiseEvent_reported t a.1 a.2).sent) w.alerts _ hnotices
  exact foldl_keeps (P := Sent w.s) _ (fun t h ht => ht.trans (chime_sent t h)) w.chimes _ halerts

end Sys2Proof.Machine

namespace Sys2Proof.Proofs
open Sys2Proof.Machine

/-- Settles O44: each operation by its own law, the end of a Handover Controller event by `finish_sent`. -/
theorem reportsAndFieldFramesChangeNothingElse : Obligations.ReportsAndFieldFramesChangeNothingElse := by
  unfold Obligations.ReportsAndFieldFramesChangeNothingElse
  intro s
  exact ⟨offerSite_reported s, offerNotice_reported s, reply_reported s, replyRefused_reported s,
    fun k src => ⟨raiseCondition_reported s k src, lower_reported s k src, raiseEvent_reported s k src⟩,
    arbitrate_sent s, offerOrdinary_sent s,
    fun dst kind p => ⟨queueUrgent_sent s dst kind p, fun o => originate_sent s o dst kind p⟩, finish_sent⟩

end Sys2Proof.Proofs
end

section
/-!
The alert table: the record and the notice of a latch, the pulse it starts or triggers, and which kinds hold the line.
-/
namespace Sys2Proof.Machine
namespace State

/-- The notice of a latch is built from the record after it (R162). -/
theorem alertNotice_latchRecord (s : State) (k : AlertKind) (src : Nat) :
    let r := s.alertRec k.code
    (s.latchRecord k src).alertNotice k src
      = [0, byteOf k.code, if k.isCondition then 0 else 1, byteOf k.sourceType, byteOf (src / 256), byteOf src,
          byteOf (if r.count < 255 then r.count + 1 else r.count), byteOf (if k.isCondition then r.present.length else 0)]
        ++ enc4 s.tmb.minuteClock := by
  have hrec : (s.latchRecord k src).alertRec k.code = { s.alertRec k.code with
      latched := true, count := if (s.alertRec k.code).count < 255 then (s.alertRec k.code).count + 1
        else (s.alertRec k.code).count, lastSource := some src } := by
    unfold latchRecord
    rw [alertRec_setAlertRec, if_pos rfl]
  unfold alertNotice
  rw [hrec]
  cases k.isCondition <;> rfl

theorem latch_masked {s : State} {k : AlertKind} (src : Nat) (h : (s.alertRec k.code).masked = true) :
    s.latch k src = s.latchRecord k src := by
  unfold latch
  exact if_pos (((latchRecord_latches s k src).masked k.code).trans h)

theorem latch_unmasked {s : State} {k : AlertKind} (src : Nat) (h : (s.alertRec k.code).masked = false) :
    s.latch k src
      = ((s.latchRecord k src).offerNotice ((s.latchRecord k src).alertNotice k src)).pulseLatch := by
  unfold latch
  exact if_neg (Bool.eq_false_iff.mp (((latchRecord_latches s k src).masked k.code).trans h))

theorem pulseLatch_held {s : State} (h : s.alb.held = true) : s.pulseLatch = s := if_pos h

theorem pulseLatch_starts {s : State} (h : s.alb.held = false) (hrun : s.tmb.pulse.running = false) :
    s.pulseLatch = s.setPulse (s.tmb.pulse.start 200 false true) := by
  unfold pulseLatch
  rw [h, hrun]
  rfl

theorem pulseLatch_triggers {s : State} (h : s.alb.held = false) (hrun : s.tmb.pulse.running = true) :
    s.pulseLatch = s.setPulse s.tmb.pulse.trigger := by
  unfold pulseLatch
  rw [h, hrun]
  rfl

end State

theorem AlertKind.isHeld_iff (k : AlertKind) : k.isHeld = true ↔ k ∈ [AlertKind.climateCritical, .zoneUnmonitored,
    .fireAlarm, .releaseCountdown, .released, .supervisionLost] := by
  cases k <;> decide

end Sys2Proof.Machine

namespace Sys2Proof.Proofs
open Sys2Proof.Machine Sys2Proof.Machine.State

/-- Settles O45: a latch by mask, held mark and pulse; a raise and a lower by whether the source is present. -/
theorem alertsRiseLatchAndFall : Obligations.AlertsRiseLatchAndFall := by
  unfold Obligations.AlertsRiseLatchAndFall
  intro s k src r holds heldNow count u present v
  have hnotice : v = (s.latchRecord k src).offerNotice ((s.latchRecord k src).alertNotice k src) :=
    congrArg u.offerNotice (alertNotice_latchRecord s k src).symm
  have hunmasked (hm : r.masked = false) : s.latch k src = v.pulseLatch :=
    (latch_unmasked src hm).trans (congrArg State.pulseLatch hnotice.symm)
  refine ⟨latch_masked src, fun hm hh => (hunmasked hm).trans (pulseLatch_held hh),
    fun hm hh hrun => (hunmasked hm).trans (pulseLatch_starts hh hrun),
    fun hm hh hrun => (hunmasked hm).trans (pulseLatch_triggers hh hrun), rfl, fun hp => if_pos hp, fun hp => if_neg hp,
    fun hp => if_neg hp, fun hp => if_pos hp, fun x => ⟨mem_insertSorted _ _ _, mem_eraseNat _ _ _⟩, k.isHeld_iff, ?_⟩
  unfold alertLow
  rw [Bool.or_eq_true]

end Sys2Proof.Proofs
end

section
/-! CLEAR ALERTS and SET MASK (R164, R165). -/
namespace Sys2Proof.Machine
namespace State

/-! ### Records changed kind by kind -/

/-- `f` changes the record of its kind by `g`, and nothing else. -/
def UpdatesRecord (f : State → AlertKind → State) (g : AlertRec → AlertRec) : Prop :=
  ∀ s k, (∃ a : Alb, f s k = { s with alb := a } ∧ a.held = s.alb.held)
    ∧ ∀ j, (f s k).alertRec j = if j = k.code then g (s.alertRec j) else s.alertRec j

theorem UpdatesRecord.foldl {f : State → AlertKind → State} {g : AlertRec → AlertRec} (hf : UpdatesRecord f g)
    (hg : ∀ r, g (g r) = g r) (l : List AlertKind) (s : State) :
    (∃ a : Alb, l.foldl f s = { s with alb := a } ∧ a.held = s.alb.held)
      ∧ ∀ j, (l.foldl f s).alertRec j = if j ∈ l.map AlertKind.code then g (s.alertRec j) else s.alertRec j := by
  induction l generalizing s with
  | nil => exact ⟨⟨s.alb, rfl, rfl⟩, fun j => rfl⟩
  | cons k l ih =>
    obtain ⟨⟨a, heq, hheld⟩, hrec⟩ := hf s k
    obtain ⟨⟨b, heq', hheld'⟩, hrec'⟩ := ih (f s k)
    rw [heq] at heq' hheld'
    refine ⟨⟨b, ?_, hheld'.trans hheld⟩, fun j => ?_⟩
    · rw [List.foldl_cons, heq, heq']
    · rw [List.foldl_cons, hrec', hrec, List.map_cons]
      simp only [List.mem_cons]
      by_cases hk : j = k.code
      · simp only [hk, true_or, if_true, hg, ite_self]
      · simp only [hk, if_false, false_or]

/-- The record of a kind cleared, where its condition is absent. -/
def clearedRec (r : AlertRec) : AlertRec :=
  if r.present = [] then { r with latched := false, count := 0, lastSource := none } else r

theorem clearedRec_clearedRec (r : AlertRec) : clearedRec (clearedRec r) = clearedRec r := by
  unfold clearedRec
  by_cases h : r.present = []
  · rw [if_pos h, if_pos h]
  · rw [if_neg h, if_neg h]

theorem clearAlert_updates : UpdatesRecord clearAlert clearedRec := fun s k => by
  unfold clearAlert clearedRec
  by_cases h : (s.alertRec k.code).present = []
  · refine ⟨⟨_, if_pos h, rfl⟩, fun j => ?_⟩
    rw [if_pos h, alertRec_setAlertRec]
    by_cases hj : j = k.code
    · subst hj
      rw [if_pos rfl, if_pos rfl, if_pos h]
    · rw [if_neg hj, if_neg hj]
  · refine ⟨⟨s.alb, if_neg h, rfl⟩, fun j => ?_⟩
    rw [if_neg h]
    by_cases hj : j = k.code
    · subst hj
      rw [if_pos rfl, if_neg h]
    · rw [if_neg hj]

theorem maskAlert_updates (b : Bool) : UpdatesRecord (maskAlert b) (fun r => { r with masked := b }) :=
  fun s k => ⟨⟨_, rfl, rfl⟩, fun j => by
    refine (alertRec_setAlertRec s k.code _ j).trans ?_
    by_cases hj : j = k.code
    · subst hj
      exact (if_pos rfl).trans (if_pos rfl).symm
    · exact (if_neg hj).trans (if_neg hj).symm⟩

/-! ### The kinds a request names -/

theorem mem_all_code (j : Nat) : j ∈ AlertKind.all.map AlertKind.code ↔ j ≤ 22 := by
  rw [show AlertKind.all.map AlertKind.code = List.range 23 from rfl, List.mem_range]
  exact Nat.lt_succ_iff

theorem mem_kindsNamed_code {codes : List Nat} (hcodes : ∀ c ∈ codes, c ≤ 22) (j : Nat) :
    j ∈ (kindsNamed codes).map AlertKind.code ↔ j ∈ codes := by
  simp only [kindsNamed, List.mem_map, List.mem_filter, decide_eq_true_eq]
  constructor
  · rintro ⟨k, ⟨-, hk⟩, rfl⟩
    exact hk
  · intro hj
    obtain ⟨k, hk, rfl⟩ := List.mem_map.mp ((mem_all_code j).mpr (hcodes j hj))
    exact ⟨k, ⟨hk, hj⟩, rfl⟩

/-- The kinds that cannot be masked, named by a request: the first in kind order. -/
theorem find_unmaskable (codes : List Nat) : (kindsNamed codes).find? AlertKind.unmaskable
    = [AlertKind.fireAlarm, .releaseCountdown, .released].find? (fun k => decide (k.code ∈ codes)) := by
  rw [kindsNamed, List.find?_filter, show [AlertKind.fireAlarm, .releaseCountdown, .released]
    = AlertKind.all.filter AlertKind.unmaskable from rfl, List.find?_filter]
  exact congrArg (AlertKind.all.find? ·) (funext fun k => decide_eq_decide.mpr And.comm)

theorem find_named {codes : List Nat} {k : AlertKind} (l : List AlertKind) (h : k.code ∈ codes) :
    (k :: l).find? (fun k => decide (k.code ∈ codes)) = some k :=
  List.find?_cons_of_pos (decide_eq_true h)

theorem find_unnamed {codes : List Nat} {k : AlertKind} (l : List AlertKind) (h : k.code ∉ codes) :
    (k :: l).find? (fun k => decide (k.code ∈ codes)) = l.find? (fun k => decide (k.code ∈ codes)) :=
  List.find?_cons_of_neg (mt of_decide_eq_true h)

/-! ### The requests -/

section
variable {s : State} {tag : Byte} {value : Nat} {codes : List Nat}

theorem exec_clearAlerts (hready : s.ready) : exec (.clearAlerts tag codes) s
    = .next ((s.requested (.clearAlerts tag codes)).clearAlertsRequest tag codes) :=
  congrArg Host.Outcome.next (serve_eq hready _ _ _ _)

theorem exec_setMask (hready : s.ready) : exec (.setMask tag value codes) s
    = .next ((s.requested (.setMask tag value codes)).setMaskRequest tag value codes) :=
  congrArg Host.Outcome.next (serve_eq hready _ _ _ _)

theorem anyCodeBeyond_iff : codes.any (fun c => decide (22 < c)) = true ↔ ∃ c ∈ codes, 22 < c := by
  simp only [List.any_eq_true, decide_eq_true_eq]

theorem clearAlertsRequest_malformed (h : ∃ c ∈ codes, 22 < c) :
    s.clearAlertsRequest tag codes = s.reply 0x40 tag .malformed [] :=
  if_pos (anyCodeBeyond_iff.mpr h)

theorem not_anyCodeBeyond (h : ∀ c ∈ codes, c ≤ 22) : ¬ codes.any (fun c => decide (22 < c)) = true :=
  fun hany => by
    obtain ⟨c, hc, hlt⟩ := anyCodeBeyond_iff.mp hany
    exact Nat.not_lt.mpr (h c hc) hlt

/-- The kinds named whose condition is present: they cannot be cleared. -/
def stillActive (s : State) (codes : List Nat) : List AlertKind :=
  AlertKind.all.filter (fun k => decide (k.code ∈ codes) && !(s.alertRec k.code).present.isEmpty)

theorem encList_kindCodes (l : List AlertKind) :
    encList (l.map (fun k => enc1 k.code)) = byteOf l.length :: l.map (fun k => byteOf k.code) := by
  have hflat : (l.map (fun k => enc1 k.code)).flatten = l.map (fun k => byteOf k.code) := by
    induction l with
    | nil => rfl
    | cons k l ih => rw [List.map_cons, List.flatten_cons, ih]; rfl
  rw [encList, hflat, List.length_map]
  rfl

theorem clearAlertsRequest_done (h : ∀ c ∈ codes, c ≤ 22) : s.clearAlertsRequest tag codes
    = if s.stillActive codes = [] then ((kindsNamed codes).foldl clearAlert s).reply 0x40 tag .done []
      else ((kindsNamed codes).foldl clearAlert s).reply 0x40 tag .stillActive
        (byteOf (s.stillActive codes).length :: (s.stillActive codes).map (fun k => byteOf k.code)) := by
  have hstill : (kindsNamed codes).filter (fun k => !(s.alertRec k.code).present.isEmpty) = s.stillActive codes := by
    rw [kindsNamed, List.filter_filter, stillActive]
    exact congrArg (AlertKind.all.filter ·) (funext fun k => Bool.and_comm _ _)
  unfold clearAlertsRequest
  rw [if_neg (not_anyCodeBeyond h)]
  dsimp only
  rw [hstill, encList_kindCodes]
  rfl

theorem setMaskRequest_malformed (h : (∃ c ∈ codes, 22 < c) ∨ 1 < value) :
    s.setMaskRequest tag value codes = s.reply 0x41 tag .malformed [] :=
  if_pos (by rwa [Bool.or_eq_true, anyCodeBeyond_iff, decide_eq_true_eq])

theorem setMaskRequest_formed (h : ∀ c ∈ codes, c ≤ 22) (hvalue : value ≤ 1) : s.setMaskRequest tag value codes
    = match (kindsNamed codes).find? (fun k => k.unmaskable && decide (value = 1)) with
      | some k => s.replyRefused 0x41 tag .unmaskable (enc1 k.code)
      | none =>
        let u := ((kindsNamed codes).foldl (maskAlert (decide (value = 1))) s).recomputeHeld
        u.reply 0x41 tag .done (AlertKind.all.flatMap (fun k => encBool (u.alertRec k.code).masked)) := by
  unfold setMaskRequest
  refine (if_neg ?_).trans ?_
  · rw [Bool.or_eq_true, decide_eq_true_eq]
    exact fun hany => hany.elim (not_anyCodeBeyond h) (Nat.not_lt.mpr hvalue)
  · cases (kindsNamed codes).find? (fun k => k.unmaskable && decide (value = 1)) <;> rfl

theorem setMaskRequest_unmaskable {k : AlertKind} (h : ∀ c ∈ codes, c ≤ 22)
    (hk : [AlertKind.fireAlarm, .releaseCountdown, .released].find? (fun k => decide (k.code ∈ codes)) = some k) :
    s.setMaskRequest tag 1 codes = s.replyRefused 0x41 tag .unmaskable [byteOf k.code] := by
  have hfind : (kindsNamed codes).find? (fun k => k.unmaskable && decide (1 = 1)) = some k := by
    simpa only [decide_true, Bool.and_true] using (find_unmaskable codes).trans hk
  rw [setMaskRequest_formed h (Nat.le_refl 1), hfind]
  rfl

/-- The alert table after SET MASK. -/
def masksSet (s : State) (value : Nat) (codes : List Nat) : State :=
  ((kindsNamed codes).foldl (maskAlert (decide (value = 1))) s).recomputeHeld

theorem setMaskRequest_done (h : ∀ c ∈ codes, c ≤ 22)
    (hvalue : value = 0 ∨ (value = 1 ∧ 10 ∉ codes ∧ 11 ∉ codes ∧ 12 ∉ codes)) :
    s.setMaskRequest tag value codes = (s.masksSet value codes).reply 0x41 tag .done
      (AlertKind.all.map (fun k => if ((s.masksSet value codes).alertRec k.code).masked then 1 else 0)) := by
  have hfind : (kindsNamed codes).find? (fun k => k.unmaskable && decide (value = 1)) = none := by
    rcases hvalue with rfl | ⟨rfl, h10, h11, h12⟩
    · exact List.find?_eq_none.mpr fun k _ => by
        rw [show decide (0 = 1) = false from rfl, Bool.and_false]
        exact Bool.false_ne_true
    · have hnone := find_unmaskable codes
      rw [find_unnamed _ h10, find_unnamed _ h11, find_unnamed _ h12] at hnone
      simpa only [decide_true, Bool.and_true, List.find?_nil] using hnone
  have hle : value ≤ 1 := by omega
  rw [setMaskRequest_formed h hle, hfind]
  exact congrArg ((s.masksSet value codes).reply 0x41 tag .done) List.map_eq_flatMap.symm

end
end State
end Sys2Proof.Machine

namespace Sys2Proof.Proofs
open Sys2Proof.Machine Sys2Proof.Machine.State

/-- Settles O46: what the two requests do to each record (`UpdatesRecord.foldl`), and their answers. -/
theorem alertRequests : Obligations.AlertRequests := by
  unfold Obligations.AlertRequests
  intro s tag codes hready
  refine ⟨?clear, fun value => ?mask⟩
  case clear =>
    intro u still
    have hexec : exec (.clearAlerts tag codes) s = .next (u.clearAlertsRequest tag codes) := exec_clearAlerts hready
    obtain ⟨-, -, -, -, -, -, -, -, -, -, -, -, -, hrecs, -⟩ := requested_accessors s (.clearAlerts tag codes)
    obtain ⟨-, -, -, -, -, -, -, halb, -⟩ := requested_fields s (.clearAlerts tag codes)
    have hrec : u.alertRec = s.alertRec := hrecs
    have hstill : u.stillActive codes = still := by unfold stillActive; rw [hrec]
    refine ⟨fun hbeyond => exec_next_of_eq hexec (clearAlertsRequest_malformed hbeyond), fun hcodes => ?_⟩
    obtain ⟨⟨a, heq, hheld⟩, hafter⟩ := clearAlert_updates.foldl clearedRec_clearedRec (kindsNamed codes) u
    have hdone := exec_next_of_eq hexec (clearAlertsRequest_done (tag := tag) hcodes)
    rw [hstill] at hdone
    refine ⟨(kindsNamed codes).foldl clearAlert u, by rw [heq], by rw [heq]; exact hheld.trans (congrArg Alb.held halb),
      fun j => ?_, fun h => exec_next_of_eq hdone (if_pos h), fun h => exec_next_of_eq hdone (if_neg h)⟩
    rw [hafter, hrec, clearedRec]
    simp only [mem_kindsNamed_code hcodes]
    grind
  case mask =>
    intro u refused
    have hexec : exec (.setMask tag value codes) s = .next (u.setMaskRequest tag value codes) := exec_setMask hready
    obtain ⟨-, -, -, -, -, -, -, -, -, -, -, -, -, hrecs, -⟩ := requested_accessors s (.setMask tag value codes)
    have hrec : u.alertRec = s.alertRec := hrecs
    refine ⟨fun hbad => exec_next_of_eq hexec (setMaskRequest_malformed hbad), ?refused, ?done⟩
    case refused =>
      intro hcodes hvalue
      subst hvalue
      refine ⟨fun h10 => ?_, fun h10 h11 => ?_, fun h10 h11 h12 => ?_⟩
      · exact exec_next_of_eq hexec (setMaskRequest_unmaskable (k := .fireAlarm) hcodes
          (find_named _ h10))
      · exact exec_next_of_eq hexec (setMaskRequest_unmaskable (k := .releaseCountdown) hcodes
          ((find_unnamed _ h10).trans (find_named _ h11)))
      · exact exec_next_of_eq hexec (setMaskRequest_unmaskable (k := .released) hcodes
          ((find_unnamed _ h10).trans ((find_unnamed _ h11).trans (find_named _ h12))))
    case done =>
      intro hcodes hvalue
      obtain ⟨⟨a, heq, -⟩, hafter⟩ :=
        (maskAlert_updates (decide (value = 1))).foldl (fun _ => rfl) (kindsNamed codes) u
      refine ⟨u.masksSet value codes, by unfold masksSet; rw [heq]; rfl, fun j => ?_, rfl,
        exec_next_of_eq hexec (setMaskRequest_done hcodes hvalue)⟩
      refine (hafter j).trans ?_
      rw [hrec]
      simp only [mem_kindsNamed_code hcodes]

end Sys2Proof.Proofs
end

section
/-! The fallback commands of a zone, the loss of supervision and RESUME (R147 to R152, R156). -/
namespace Sys2Proof.Machine

theorem fallbackCommands_noData {p : Profile} {c : ClimateRec} (h : c.state = .noData) :
    fallbackCommands p c = (false, false) := by
  unfold fallbackCommands
  rw [h]

/-- The lines of R151 for a zone that has a reading. -/
theorem fallbackCommands_reading {p : Profile} {c : ClimateRec} {r : Reading} (hstate : c.state ≠ .noData)
    (hr : c.reading = some r) : fallbackCommands p c
      = if (p.high : Int) < r.rh then (false, true)
        else if (r.rh : Int) < p.low then (true, false)
        else if (p.low : Int) + p.hyst ≤ r.rh ∧ (r.rh : Int) ≤ p.high - p.hyst then (false, false)
        else (c.humidifier, c.dehumidifier) := by
  unfold fallbackCommands
  rw [hr]
  cases h : c.state with
  | noData => exact absurd h hstate
  | normal | warning | excursion | critical => rfl

namespace State

theorem changedTo_eq (c c' : ClimateRec) (on : Bool) (f : Function) : changedTo c c' on f
    = (decide (f = .humidifier ∧ c.humidifier ≠ c'.humidifier ∧ c'.humidifier = on)
      || decide (f = .dehumidifier ∧ c.dehumidifier ≠ c'.dehumidifier ∧ c'.dehumidifier = on)) := by
  unfold changedTo
  cases f <;> simp [Bool.beq_eq_decide_eq]

theorem computeFallback_latched {s : State} {z : Nat} (h : (s.fireState z).latched = true) : s.computeFallback z = s := by
  unfold computeFallback
  rw [belowAlarm, h]
  rfl

theorem computeFallback_below {s : State} {z : Nat} (h : (s.fireState z).latched = false) :
    s.computeFallback z
      = let c := s.climate z
        let new := fallbackCommands (s.profile (s.zone z).profile) c
        let c' : ClimateRec := { c with humidifier := new.1, dehumidifier := new.2 }
        ((s.setClimate z c').originateAll .cls (s.actuatorsOf z (changedTo c c' false)) 0x22 [0]).originateAll .cls
          (s.actuatorsOf z (changedTo c c' true)) 0x22 [1] := by
  unfold computeFallback
  rw [belowAlarm, h]
  rfl

/-! ### Supervision -/

theorem requested_triggered {s : State} (c : Instr) (h : s.mga.partState = .supervised)
    (hlive : s.mga.live.supervisionTimeout ≠ 0) :
    s.requested c = (s.takeHanded c).setSupervision s.tmb.supervision.trigger := if_pos ⟨h, hlive⟩

theorem requested_untriggered {s : State} (c : Instr)
    (h : s.mga.partState ≠ .supervised ∨ s.mga.live.supervisionTimeout = 0) : s.requested c = s.takeHanded c :=
  if_neg fun hboth => h.elim (· hboth.1) hboth.2

theorem foldl_commandsOff (l : List Nat) (s : State) :
    (l.foldl commandsOff s).tmb = s.tmb ∧ (l.foldl commandsOff s).mga = s.mga :=
  foldl_keeps (P := fun t => t.tmb = s.tmb ∧ t.mga = s.mga) commandsOff (fun _ _ ht => ht) l s ⟨rfl, rfl⟩

theorem beginFallback_eq (s : State) : s.beginFallback = (List.range 16).foldl computeFallback
    (((List.range 16).foldl commandsOff s).setRetry (s.tmb.retry.start s.mga.live.retryInterval true false)) := by
  obtain ⟨htmb, hmga⟩ := foldl_commandsOff (List.range 16) s
  rw [← htmb, ← hmga]
  rfl

section
variable {s : State}

theorem exec_supervisionTimerExpiry (h : Instr.supervisionTimerExpiry ∈ s.handed) :
    exec .supervisionTimerExpiry s = .next (s.takeHanded .supervisionTimerExpiry).supervisionExpired :=
  congrArg Host.Outcome.next (takeEvent_eq h _)

theorem supervisionExpired_elsewhere (h : s.mga.partState ≠ .supervised) :
    s.supervisionExpired = s.setSupervision { s.tmb.supervision with pending := false } := if_neg h

theorem supervisionExpired_supervised (h : s.mga.partState = .supervised) :
    let u := s.setSupervision s.tmb.supervision.stop
    let a := raiseCondition { u with mga := { u.mga with partState := .autonomous } } .supervisionLost 0
    s.supervisionExpired = (List.range 16).foldl computeFallback (((List.range 16).foldl commandsOff a).setRetry
      (s.tmb.retry.start s.mga.live.retryInterval true false)) := by
  intro u a
  have ha : Reported { u with mga := { u.mga with partState := .autonomous } } a := raiseCondition_reported _ _ _
  have hretry : a.tmb.retry = s.tmb.retry := ha.retry
  have hlive : a.mga.live = s.mga.live := (congrArg Mga.live ha.mga :)
  rw [← hretry, ← hlive, ← beginFallback_eq]
  exact if_pos h

theorem exec_resume (tag : Byte) (hready : s.ready) :
    exec (.resume tag) s = .next ((s.requested (.resume tag)).resumeRequest tag) :=
  congrArg Host.Outcome.next (serve_eq hready _ _ _ _)

theorem resumeRequest_elsewhere (tag : Byte) (h : s.mga.partState ≠ .autonomous) :
    s.resumeRequest tag = s.replyRefused 0x42 tag .notAutonomous [] := if_neg h

/-- The timer with which supervision starts (R147). -/
theorem startSupervision_eq (s : State) : s.startSupervision
    = s.setSupervision (if s.mga.live.supervisionTimeout = 0 then s.tmb.supervision.stop
        else s.tmb.supervision.start s.mga.live.supervisionTimeout false true) :=
  (apply_ite s.setSupervision _ _ _).symm

theorem resumeRequest_autonomous (tag : Byte) (h : s.mga.partState = .autonomous) :
    let a := lower { s with mga := { s.mga with partState := .supervised } } .supervisionLost 0
    let b := a.setSupervision (if s.mga.live.supervisionTimeout = 0 then s.tmb.supervision.stop
      else s.tmb.supervision.start s.mga.live.supervisionTimeout false true)
    s.resumeRequest tag = (b.setRetry s.tmb.retry.stop).reply 0x42 tag .done [1] := by
  intro a b
  have ha : Reported { s with mga := { s.mga with partState := .supervised } } a := lower_reported _ _ _
  have hsup : a.tmb.supervision = s.tmb.supervision := ha.supervision
  have hretry : a.tmb.retry = s.tmb.retry := ha.retry
  have hlive : a.mga.live = s.mga.live := (congrArg Mga.live ha.mga :)
  have hb : a.startSupervision = b := by rw [startSupervision_eq, hlive, hsup]
  have hstop : b.tmb.retry.stop = s.tmb.retry.stop := congrArg Timer.stop hretry
  refine (if_pos h).trans ?_
  show State.reply (a.startSupervision.setRetry a.startSupervision.tmb.retry.stop) 0x42 tag .done [1] = _
  rw [hb, hstop]

end
end State
end Sys2Proof.Machine

namespace Sys2Proof.Proofs
open Sys2Proof.Machine Sys2Proof.Machine.State

/-- Settles O47: the commands line by line, and the frames of a computation function by function (`changedTo_eq`). -/
theorem fallbackCommandsOfAZone : Obligations.FallbackCommandsOfAZone := by
  unfold Obligations.FallbackCommandsOfAZone
  refine ⟨fun p c => ⟨fallbackCommands_noData, fun r hstate hr => ?_⟩, fun s z => ?_⟩
  · rw [fallbackCommands_reading hstate hr]
    refine ⟨fun h => if_pos (by omega), fun h hlow => (if_neg (by omega)).trans (if_pos (by omega)), fun h hlow => ?_⟩
    rw [if_neg (by omega), if_neg (by omega)]
    exact ⟨fun hl hh => if_pos (by omega), fun hout => if_neg (by omega)⟩
  · intro c new changed
    refine ⟨computeFallback_latched, fun h => ?_⟩
    have hchanged (on : Bool) :
        changed on = changedTo c { c with humidifier := new.1, dehumidifier := new.2 } on :=
      funext fun f => (changedTo_eq c { c with humidifier := new.1, dehumidifier := new.2 } on f).symm
    rw [hchanged, hchanged]
    exact computeFallback_below h

/-- Settles O48: the timer, the condition and the retry timer read in the state before (`supervisionExpired_supervised`,
`resumeRequest_autonomous`). -/
theorem supervisionLossAndResume : Obligations.SupervisionLossAndResume := by
  unfold Obligations.SupervisionLossAndResume
  intro s
  refine ⟨fun hmem => ?_, fun tag hready => ?_⟩
  · have hexec := exec_supervisionTimerExpiry hmem
    intro s0
    exact ⟨fun h => exec_next_of_eq hexec (supervisionExpired_elsewhere h),
      fun h => exec_next_of_eq hexec (supervisionExpired_supervised h)⟩
  · have hmga : (s.requested (.resume tag)).mga = s.mga := by
      obtain ⟨-, -, -, -, -, -, -, -, hmga, -⟩ := requested_fields s (.resume tag)
      exact hmga
    intro u
    have hexec : exec (.resume tag) s = .next (u.resumeRequest tag) := exec_resume tag hready
    refine ⟨fun h => exec_next_of_eq hexec (resumeRequest_elsewhere tag (hmga ▸ h)), fun h => ?_⟩
    have hu : u = s.takeHanded (.resume tag) := requested_untriggered _ (.inl (by rw [h]; decide))
    clear_value u
    subst hu
    exact exec_next_of_eq hexec (resumeRequest_autonomous tag h)

end Sys2Proof.Proofs
end

section
/-! The expiry of the retry timer: which actuators are visited, and in which order (R154, R155). -/
namespace Sys2Proof.Machine

/-! ### The order of the visits -/

namespace FallbackVisit

theorem sendsOn_iff (v : FallbackVisit) : v.sendsOn = true ↔ v.waits = false ∧ v.on = true := by
  rw [sendsOn, Bool.and_eq_true, Bool.not_eq_true']

theorem sendsOffTo_iff (z : Nat) (v : FallbackVisit) :
    v.sendsOffTo z = true ↔ v.waits = false ∧ v.on = false ∧ v.zone = z := by
  rw [sendsOffTo, Bool.and_eq_true, Bool.and_eq_true, Bool.not_eq_true', Bool.not_eq_true', decide_eq_true_eq, and_assoc]

/-- A visit that queues ON does not queue OFF. -/
theorem not_sendsOffTo_of_sendsOn {v : FallbackVisit} (h : v.sendsOn = true) (z : Nat) : ¬ v.sendsOffTo z = true :=
  fun hoff => Bool.noConfusion (((sendsOn_iff v).mp h).2.symm.trans ((sendsOffTo_iff z v).mp hoff).2.1)

/-- ON of the one, before OFF of the other in the same zone: the order R154 excludes. -/
def Clashes (v w : FallbackVisit) : Prop := v.sendsOn = true ∧ w.sendsOffTo v.zone = true

end FallbackVisit

theorem placeVisit_passes {v w : FallbackVisit} {rest : List FallbackVisit} (hon : v.sendsOn = true)
    (hoff : ∃ x ∈ w :: rest, x.sendsOffTo v.zone = true) : placeVisit v (w :: rest) = w :: placeVisit v rest :=
  if_pos (Bool.and_eq_true_iff.mpr ⟨hon, List.any_eq_true.mpr hoff⟩)

theorem placeVisit_first {v : FallbackVisit} {l : List FallbackVisit}
    (h : ¬ v.sendsOn = true ∨ ∀ x ∈ l, ¬ x.sendsOffTo v.zone = true) : placeVisit v l = v :: l := by
  cases l with
  | nil => rfl
  | cons w rest =>
    refine if_neg fun hcond => ?_
    obtain ⟨hon, hany⟩ := Bool.and_eq_true_iff.mp hcond
    obtain ⟨x, hx, hoff⟩ := List.any_eq_true.mp hany
    exact h.elim (· hon) (· x hx hoff)

/-- Where a visit is placed: first, or past a first visit with an OFF of its zone still to come. -/
theorem placeVisit_cons_cases (v w : FallbackVisit) (rest : List FallbackVisit) :
    (placeVisit v (w :: rest) = w :: placeVisit v rest ∧ v.sendsOn = true)
      ∨ (placeVisit v (w :: rest) = v :: w :: rest ∧ ∀ x ∈ w :: rest, ¬ v.Clashes x) := by
  by_cases hon : v.sendsOn = true
  · by_cases hoff : ∃ x ∈ w :: rest, x.sendsOffTo v.zone = true
    · exact .inl ⟨placeVisit_passes hon hoff, hon⟩
    · refine .inr ⟨placeVisit_first (.inr fun x hx hx' => hoff ⟨x, hx, hx'⟩), fun x hx hc => hoff ⟨x, hx, hc.2⟩⟩
  · exact .inr ⟨placeVisit_first (.inl hon), fun x _ hc => hon hc.1⟩

theorem placeVisit_perm (v : FallbackVisit) (l : List FallbackVisit) : (placeVisit v l).Perm (v :: l) := by
  induction l with
  | nil => exact List.Perm.refl _
  | cons w rest ih =>
    rcases placeVisit_cons_cases v w rest with ⟨heq, -⟩ | ⟨heq, -⟩ <;> rw [heq]
    exact (ih.cons w).trans (List.Perm.swap v w rest)

theorem placeVisit_pairwise (v : FallbackVisit) {l : List FallbackVisit} (h : l.Pairwise (fun x y => ¬ x.Clashes y)) :
    (placeVisit v l).Pairwise (fun x y => ¬ x.Clashes y) := by
  induction l with
  | nil => exact List.pairwise_singleton _ _
  | cons w rest ih =>
    rw [List.pairwise_cons] at h
    rcases placeVisit_cons_cases v w rest with ⟨heq, hon⟩ | ⟨heq, hclear⟩ <;> rw [heq]
    · refine List.pairwise_cons.mpr ⟨fun x hx => ?_, ih h.2⟩
      rcases List.mem_cons.mp ((placeVisit_perm v rest).mem_iff.mp hx) with rfl | hx
      · exact fun hc => FallbackVisit.not_sendsOffTo_of_sendsOn hon _ hc.2
      · exact h.1 x hx
    · exact List.pairwise_cons.mpr ⟨hclear, List.pairwise_cons.mpr h⟩

/-- A visit with ON stands just after the last OFF of its zone. -/
theorem placeVisit_after {v w : FallbackVisit} {back : List FallbackVisit} (front : List FallbackVisit)
    (hon : v.sendsOn = true) (hw : w.sendsOffTo v.zone = true) (hback : ∀ x ∈ back, ¬ x.sendsOffTo v.zone = true) :
    placeVisit v (front ++ w :: back) = front ++ w :: v :: back := by
  induction front with
  | nil =>
    rw [List.nil_append, placeVisit_passes hon ⟨w, List.mem_cons_self, hw⟩, placeVisit_first (.inr hback)]
    rfl
  | cons x front ih =>
    have hmem : w ∈ x :: (front ++ w :: back) :=
      List.mem_cons_of_mem _ (List.mem_append_right _ List.mem_cons_self)
    rw [List.cons_append, placeVisit_passes hon ⟨w, hmem, hw⟩, ih]
    rfl

theorem offBeforeOn_perm (l : List FallbackVisit) : (offBeforeOn l).Perm l := by
  induction l with
  | nil => exact List.Perm.refl _
  | cons v rest ih => exact (placeVisit_perm v _).trans (ih.cons v)

theorem offBeforeOn_pairwise (l : List FallbackVisit) : (offBeforeOn l).Pairwise (fun x y => ¬ x.Clashes y) := by
  induction l with
  | nil => exact List.Pairwise.nil
  | cons v rest ih => exact placeVisit_pairwise v ih

namespace State

/-! ### The actuators visited -/

/-- The visit of a station entry, if it is a climate actuator driven in fallback. -/
def visitOf (s : State) (p : Nat × StationEntry) : Option FallbackVisit :=
  match p.2.kind, p.2.zone with
  | .actuator, some z =>
    if belowAlarm (s.fireState z) then
      match s.actuator p.2.index with
      | .humidifier => some ⟨p.2.addr, z, (s.climate z).humidifier, s.waitsInOrdinary .cls p.2.addr⟩
      | .dehumidifier => some ⟨p.2.addr, z, (s.climate z).dehumidifier, s.waitsInOrdinary .cls p.2.addr⟩
      | _ => none
    else none
  | _, _ => none

theorem fallbackVisits_eq (s : State) : s.fallbackVisits = s.stationList.filterMap s.visitOf := rfl

/-- The entries visited: climate actuators of zones below ALARM (R154). -/
theorem visitOf_eq_some {s : State} {p : Nat × StationEntry} {v : FallbackVisit} : s.visitOf p = some v
    ↔ p.2.addr = v.addr ∧ p.2.kind = .actuator ∧ p.2.zone = some v.zone ∧ (s.fireState v.zone).latched = false
      ∧ ((s.actuator p.2.index = .humidifier ∧ v.on = (s.climate v.zone).humidifier)
          ∨ (s.actuator p.2.index = .dehumidifier ∧ v.on = (s.climate v.zone).dehumidifier))
      ∧ v.waits = s.waitsInOrdinary .cls p.2.addr := by
  obtain ⟨addr, z, on, waits⟩ := v
  unfold visitOf
  cases hkind : p.2.kind with
  | actuator =>
    cases hzone : p.2.zone with
    | none => simp
    | some z' =>
      cases hlatched : (s.fireState z').latched with
      | true =>
        simp only [belowAlarm, hlatched]
        refine ⟨nofun, fun ⟨_, _, hz, hbelow, _⟩ => ?_⟩
        cases hz
        exact Bool.noConfusion (hlatched.symm.trans hbelow)
      | false =>
        cases hfun : s.actuator p.2.index <;> simp only [belowAlarm, hlatched] <;> grind
  | probe | fireInput | reader | hatchUnit | courierTerminal | other => simp

theorem waitsInOrdinary_eq (s : State) (o : Origin) (dst : Nat) : s.waitsInOrdinary o dst
    = s.fsp.ordinary.any (fun it => decide (it.origin = o ∧ it.frame.dst = dst)) := by
  unfold waitsInOrdinary
  exact congrArg (s.fsp.ordinary.any ·) (funext fun it => (Bool.decide_and _ _).symm)

/-! ### The expiry -/

theorem visitActuator_eq (s : State) (v : FallbackVisit) : s.visitActuator v
    = if v.waits then s.raiseEvent .retryOverrun v.addr else s.originate .cls v.addr 0x22 [if v.on then 1 else 0] := by
  unfold visitActuator
  cases v.on <;> rfl

theorem visitActuator_sent (s : State) (v : FallbackVisit) : Sent s (s.visitActuator v) := by
  unfold visitActuator
  split
  · exact (raiseEvent_reported s _ _).sent
  · exact originate_sent s _ _ _ _

theorem exec_retryTimerExpiry {s : State} {overrun : Bool} (h : Instr.retryTimerExpiry overrun ∈ s.handed) :
    exec (.retryTimerExpiry overrun) s = .next (s.takeHanded (.retryTimerExpiry overrun)).retryExpired :=
  congrArg Host.Outcome.next (takeEvent_eq h _)

theorem retryExpired_elsewhere {s : State} (h : s.mga.partState ≠ .autonomous) :
    s.retryExpired = s.setRetry { s.tmb.retry with pending := false } := if_neg h

/-- An expiry in ACTIVE_AUTONOMOUS: the visits, acknowledged where none was skipped (R154). -/
theorem retryExpired_autonomous {s : State} (h : s.mga.partState = .autonomous) :
    let w := (offBeforeOn s.fallbackVisits).foldl visitActuator s
    s.retryExpired = if s.fallbackVisits.all (fun v => !v.waits) then w.setRetry { s.tmb.retry with pending := false }
      else w := by
  intro w
  have hw : Sent s w := foldl_keeps (P := Sent s) _ (fun t v ht => ht.trans (visitActuator_sent t v)) _ s (Sent.rfl' s)
  rw [← hw.retry]
  exact if_pos h

end State
end Sys2Proof.Machine

namespace Sys2Proof.Proofs
open Sys2Proof.Machine Sys2Proof.Machine.State

/-- Settles O49: the expiry, the actuators visited (`visitOf_eq_some`), and the order by where a visit is placed. -/
theorem retryExpiryDrivesAgain : Obligations.RetryExpiryDrivesAgain := by
  unfold Obligations.RetryExpiryDrivesAgain
  refine ⟨fun s overrun hmem => ?expiry, fun s => ?visits, fun visits => ?order⟩
  case expiry =>
    intro u act w
    have hact : visitActuator = act := funext fun x => funext (visitActuator_eq x)
    have hexec := exec_retryTimerExpiry hmem
    refine ⟨fun h => exec_next_of_eq hexec (retryExpired_elsewhere h), fun h => ?_⟩
    have hdone := exec_next_of_eq hexec (retryExpired_autonomous h)
    rw [hact] at hdone
    refine ⟨fun hnone => exec_next_of_eq hdone (if_pos ?_), fun hsome => exec_next_of_eq hdone (if_neg ?_)⟩
    · exact List.all_eq_true.mpr fun v hv => by rw [hnone v hv]; rfl
    · obtain ⟨v, hv, hwaits⟩ := hsome
      intro hall
      have := List.all_eq_true.mp hall v hv
      rw [hwaits] at this
      exact Bool.false_ne_true this
  case visits =>
    rw [fallbackVisits_eq]
    refine ⟨?_, fun v => ?_⟩
    · induction s.stationList with
      | nil => exact List.Sublist.refl _
      | cons p l ih =>
        cases hp : s.visitOf p with
        | none => rw [List.filterMap_cons_none hp]; exact ih.cons _
        | some v =>
          obtain ⟨haddr, -⟩ := visitOf_eq_some.mp hp
          rw [List.filterMap_cons_some hp, List.map_cons, List.map_cons, haddr]
          exact ih.cons_cons _
    · simp only [List.mem_filterMap, visitOf_eq_some, waitsInOrdinary_eq]
      refine exists_congr fun p => and_congr_right fun _ => and_congr_right fun haddr => ?_
      rw [haddr]
  case order =>
    intro sendsOff sendsOn
    have hoff (z : Nat) (v : FallbackVisit) : v.sendsOffTo z = true ↔ sendsOff z v := FallbackVisit.sendsOffTo_iff z v
    have hon (v : FallbackVisit) : v.sendsOn = true ↔ sendsOn v := FallbackVisit.sendsOn_iff v
    refine ⟨offBeforeOn_perm visits, (offBeforeOn_pairwise visits).imp fun hc h => hc ⟨(hon _).mpr h.1, (hoff _ _).mpr h.2⟩,
      rfl, fun v h => placeVisit_first (h.imp (mt (hon v).mp) fun hnone x hx hx' => ?_),
      fun v front w back hv heq hw hback => ?_⟩
    · exact hnone x ((offBeforeOn_perm visits).mem_iff.mp hx) ((hoff _ _).mp hx')
    · rw [offBeforeOn, heq]
      exact placeVisit_after front ((hon v).mpr hv) ((hoff _ _).mpr hw) fun x hx hx' => hback x hx ((hoff _ _).mp hx')

end Sys2Proof.Proofs
end

section
/-! The exchange every REQUEST shares, and how a REQUEST payload is read (R147, R168 to R170, 11.4). -/
namespace Sys2Proof.Machine

/-! ### Reading a REQUEST payload -/

theorem field_take {p : List Byte} {n : Nat} (i : Nat) (h : i + n ≤ p.length) : field p i n = (p.drop i).take n := by
  apply List.ext_getElem
  · simp only [field, List.length_map, List.length_range, List.length_take, List.length_drop]
    omega
  · intro k hk _
    simp only [field, List.length_map, List.length_range] at hk
    simp only [field, List.getElem_map, List.getElem_range, List.getElem_take, List.getElem_drop, byteAt]
    exact List.getD_eq_getElem?_getD.trans (by rw [List.getElem?_eq_getElem (by omega)]; rfl)

theorem identsOf_eq (p : List Byte) (i n : Nat) :
    identsOf p i n = (List.range n).map (fun k => field p (i + 8 * k) 8) := by
  induction n generalizing i with
  | zero => rfl
  | succ n ih =>
    rw [identsOf, ih, List.range_succ_eq_map, List.map_cons, List.map_map]
    refine congrArg (_ :: ·) (List.map_congr_left fun k _ => ?_)
    show field p (i + 8 + 8 * k) 8 = field p (i + 8 * (k + 1)) 8
    rw [Nat.mul_succ, Nat.add_assoc, Nat.add_comm 8]

/-- A REQUEST payload: kind, tag, parameter length, parameters (11.4). -/
def requestPayload (kind tag : Byte) (p : List Byte) : List Byte := [kind, tag, byteOf p.length] ++ p

theorem readRequest_payload {p : List Byte} (kind tag : Byte) (h : p.length ≤ 252) :
    readRequest (requestPayload kind tag p)
      = (requestOf kind.toNat tag p).getD (.malformedRequest (requestPayload kind tag p)) := by
  refine if_neg fun hbad => ?_
  have hlen : (requestPayload kind tag p).length = p.length + 3 := rfl
  have hcount : nat1 (requestPayload kind tag p) 2 = p.length := by
    show (byteOf p.length).toNat = p.length
    rw [byteOf, BitVec.toNat_ofNat]
    exact Nat.mod_eq_of_lt (by omega)
  omega

section
variable {kind tag : Byte} {p : List Byte} {c : Instr}

theorem readRequest_some (h : p.length ≤ 252) (hreq : requestOf kind.toNat tag p = some c) :
    readRequest (requestPayload kind tag p) = c := by
  rw [readRequest_payload kind tag h, hreq]
  rfl

theorem readRequest_none (h : p.length ≤ 252) (hreq : requestOf kind.toNat tag p = none) :
    readRequest (requestPayload kind tag p) = .malformedRequest (requestPayload kind tag p) := by
  rw [readRequest_payload kind tag h, hreq]
  rfl

end

/-- A kind outside the list of R168 is no kind of a REQUEST. -/
theorem requestOf_unknown {kind : Nat} (tag : Byte) (p : List Byte) (h : kind ∉ [0x01, 0x02, 0x03, 0x04, 0x05, 0x06, 0x07,
    0x08, 0x10, 0x11, 0x12, 0x13, 0x14, 0x20, 0x21, 0x22, 0x23, 0x24, 0x25, 0x30, 0x31, 0x40, 0x41, 0x42, 0x50, 0x51]) :
    requestOf kind tag p = none := by
  simp only [List.mem_cons, List.not_mem_nil, or_false, not_or] at h
  simp only [requestOf, Req.ident, Req.read, Req.tableOpen, Req.tableWrite, Req.tableRead, Req.activate, Req.deactivate,
    Req.restart, Req.zoneProfile, Req.zoneClearExposure, Req.zoneFireReset, Req.zoneRelease, Req.zoneSilence,
    Req.mediaEnter, Req.mediaDelete, Req.mediaMove, Req.mediaHoldSet, Req.mediaHoldClear, Req.mediaQuery, Req.consign,
    Req.consignCancel, Req.clearAlerts, Req.setMask, Req.resume, Req.storeBurn, Req.setLive, h, if_false]

theorem readRequest_unreadable {p : List Byte} (h : p.length < 3 ∨ nat1 p 2 ≠ p.length - 3 ∨ nat1 p 0 ∉ [0x01, 0x02,
    0x03, 0x04, 0x05, 0x06, 0x07, 0x08, 0x10, 0x11, 0x12, 0x13, 0x14, 0x20, 0x21, 0x22, 0x23, 0x24, 0x25, 0x30, 0x31, 0x40,
    0x41, 0x42, 0x50, 0x51]) : readRequest p = .malformedRequest p := by
  unfold readRequest
  by_cases hlen : p.length < 3 ∨ nat1 p 2 ≠ p.length - 3
  · exact if_pos hlen
  · rw [if_neg hlen, requestOf_unknown _ _ ((or_assoc.mpr h).resolve_left hlen)]
    rfl

/-! ### The exchange -/

theorem mga_requested (s : State) (c : Instr) : (s.requested c).mga = s.mga := by
  obtain ⟨-, -, -, -, -, -, -, -, hmga, -⟩ := requested_fields s c
  exact hmga

/-- Every REQUEST is served with the kind and tag its REPLY carries. -/
theorem exec_served {c : Instr} {kind : Nat} {tag : Byte} (s : State) (h : requestHead c = some (kind, tag)) :
    ∃ act : State → State, exec c s = .next (s.serve c kind tag act) := by
  cases c <;> cases h <;> exact ⟨_, rfl⟩

theorem serve_restarting {s : State} (h : s.mga.restartPending = true) (c : Instr) (kind : Nat) (tag : Byte)
    (act : State → State) : s.serve c kind tag act = s.requested c :=
  if_pos ((congrArg Mga.restartPending (mga_requested s c)).trans h)

theorem serve_checking {s : State} (h : s.mga.restartPending = false) (hcheck : s.mga.check ≠ none) (c : Instr)
    (kind : Nat) (tag : Byte) (act : State → State) :
    s.serve c kind tag act = (s.requested c).reply kind tag .busy [] := by
  have hpending : (s.requested c).mga.restartPending = false := (congrArg Mga.restartPending (mga_requested s c)).trans h
  have hsome : (s.requested c).mga.check.isSome = true := by
    rw [mga_requested]
    exact Option.isSome_iff_ne_none.mpr hcheck
  exact (if_neg (Bool.eq_false_iff.mp hpending)).trans (if_pos hsome)

theorem fitResults_eq {results : List Byte} (h : results.length ≤ 251) : State.fitResults results = results := if_pos h

theorem reply_eq (s : State) (kind : Nat) (tag : Byte) (st : Status) {results : List Byte} (h : results.length ≤ 251) :
    s.reply kind tag st results = s.offerSite ⟨⟨s.mga.live.siteAddress, s.mga.live.ownAddress, 0x31,
      [byteOf kind, tag, byteOf st.code, byteOf 0] ++ results⟩, .reply⟩ := by
  unfold State.reply State.replyPayload
  rw [fitResults_eq h]
  rfl

theorem replyRefused_eq (s : State) (kind : Nat) (tag : Byte) (why : Reason) {results : List Byte}
    (h : results.length ≤ 251) : s.replyRefused kind tag why results
      = s.offerSite ⟨⟨s.mga.live.siteAddress, s.mga.live.ownAddress, 0x31,
        [byteOf kind, tag, byteOf 1, byteOf why.code] ++ results⟩, .reply⟩ := by
  unfold State.replyRefused State.replyPayload
  rw [fitResults_eq h]
  rfl

theorem exec_malformedRequest {s : State} (hready : s.ready) (p : List Byte) : exec (.malformedRequest p) s
    = .next ((s.requested (.malformedRequest p)).reply (State.echoByte p 0).toNat (State.echoByte p 1) .malformed []) :=
  congrArg Host.Outcome.next (serve_eq hready _ _ _ _)

theorem exec_ident {s : State} (hready : s.ready) (tag : Byte) : exec (.ident tag) s
    = .next ((s.requested (.ident tag)).reply 0x01 tag .done
      ([0x0C, 0x5D, 0x01, 0xA0, 2] ++ enc2 s.mga.live.vaultId ++ enc2 s.mga.live.ownAddress)) := by
  have hexec : exec (.ident tag) s = .next ((s.requested (.ident tag)).identRequest tag) :=
    congrArg Host.Outcome.next (serve_eq hready _ _ _ _)
  refine State.exec_next_of_eq hexec ?_
  unfold State.identRequest
  rw [mga_requested]
  rfl

end Sys2Proof.Machine

namespace Sys2Proof.Proofs
open Sys2Proof.Machine Sys2Proof.Machine.State

/-- Settles O50: what `serve` does before a request's own rule, the REPLY's bytes, and a payload read kind by kind. -/
theorem requestsShareOneExchange : Obligations.RequestsShareOneExchange := by
  unfold Obligations.RequestsShareOneExchange
  refine ⟨fun s c => ⟨requested_triggered c, requested_untriggered c, rfl, fun kind tag hhead => ?served⟩,
    fun s kind tag results hlen => ?reply, rfl, rfl, fun s kind tag rest hready => ?malformed,
    fun p => readRequest_unreadable, fun tag p hp => ?reads, fun s tag hready => exec_ident hready tag⟩
  case served =>
    obtain ⟨act, hexec⟩ := exec_served s hhead
    exact ⟨fun h => exec_next_of_eq hexec (serve_restarting h c kind tag act),
      fun h hcheck => exec_next_of_eq hexec (serve_checking h hcheck c kind tag act)⟩
  case reply =>
    intro reply
    exact ⟨fun st => reply_eq s kind tag st hlen, fun why => replyRefused_eq s kind tag why hlen, rfl⟩
  case malformed =>
    intro answered
    exact ⟨exec_malformedRequest hready _, ⟨_, exec_malformedRequest hready _⟩, ⟨_, _, exec_malformedRequest hready _⟩⟩
  case reads =>
    intro payload reads bad
    have ok (kind : Byte) {n : Nat} {c : Instr} (hof : requestOf kind.toNat tag p = if p.length = n then some c else none)
        (hn : p.length = n) : reads kind c := readRequest_some hp (hof.trans (if_pos hn))
    have no (kind : Byte) {n : Nat} {c : Instr} (hof : requestOf kind.toNat tag p = if p.length = n then some c else none)
        (hn : p.length ≠ n) : bad kind := readRequest_none hp (hof.trans (if_neg hn))
    have hfield {n : Nat} (h : n ≤ p.length) : field p 0 n = p.take n := by rw [field_take 0 (by omega)]; rfl
    refine ⟨fun h => ⟨ok 0x01 rfl h, ok 0x07 rfl h, ok 0x08 rfl h, ok 0x42 rfl h⟩,
      fun h => ⟨no 0x01 rfl h, no 0x07 rfl h, no 0x08 rfl h, no 0x42 rfl h⟩,
      fun h => ⟨ok 0x05 rfl h, ok 0x11 rfl h, ok 0x12 rfl h, ok 0x13 rfl h, ok 0x14 rfl h⟩,
      fun h => ⟨no 0x05 rfl h, no 0x11 rfl h, no 0x12 rfl h, no 0x13 rfl h, no 0x14 rfl h⟩,
      fun h => ⟨ok 0x03 rfl h, ok 0x06 rfl h, ok 0x10 rfl h, ok 0x31 rfl h⟩,
      fun h => ⟨no 0x03 rfl h, no 0x06 rfl h, no 0x10 rfl h, no 0x31 rfl h⟩,
      fun h => ⟨ok 0x50 rfl h, ok 0x51 rfl h⟩, fun h => ⟨no 0x50 rfl h, no 0x51 rfl h⟩, fun h => ?ident,
      fun h => ⟨no 0x21 rfl h, no 0x25 rfl h⟩, fun h => ?identAndByte,
      fun h => ⟨no 0x02 rfl h, no 0x22 rfl h, no 0x23 rfl h, no 0x24 rfl h⟩, fun h => ?enter, no 0x20 rfl,
      fun h => readRequest_some hp (if_neg h), fun h => readRequest_none hp (if_pos h), ?consign, ?notConsign, ?clear,
      ?notClear, ?mask, ?notMask⟩
    case ident =>
      have hp8 : field p 0 8 = p := field_of_length h
      have hdelete := ok 0x21 rfl h
      have hquery := ok 0x25 rfl h
      rw [hp8] at hdelete hquery
      exact ⟨hdelete, hquery⟩
    case identAndByte =>
      have hrest : field p 1 8 = p.drop 1 := by
        rw [field_take 1 (by omega), List.take_of_length_le (by rw [List.length_drop]; omega)]
      have hread := ok 0x02 rfl h
      have hmove := ok 0x22 rfl h
      have hset := ok 0x23 rfl h
      have hclear := ok 0x24 rfl h
      rw [hrest] at hread
      rw [hfield (by omega)] at hmove hset hclear
      exact ⟨hread, hmove, hset, hclear⟩
    case enter =>
      have henter := ok 0x20 rfl h
      rwa [hfield (by omega)] at henter
    case consign =>
      intro h
      rw [← identsOf_eq]
      exact readRequest_some hp ((if_neg (by omega)).trans (if_pos h))
    case notConsign =>
      intro h
      by_cases hshort : p.length < 13
      · exact readRequest_none hp (if_pos hshort)
      · exact readRequest_none hp ((if_neg hshort).trans (if_neg h))
    case clear =>
      intro h
      have hne : p ≠ [] := List.ne_nil_of_length_pos (by omega)
      exact readRequest_some hp ((if_neg hne).trans (if_pos h))
    case notClear =>
      intro h
      by_cases hshort : p = []
      · exact readRequest_none hp (if_pos hshort)
      · exact readRequest_none hp ((if_neg hshort).trans (if_neg h))
    case mask =>
      intro h
      exact readRequest_some hp ((if_neg (by omega)).trans (if_pos h))
    case notMask =>
      intro h
      by_cases hshort : p.length < 2
      · exact readRequest_none hp (if_pos hshort)
      · exact readRequest_none hp ((if_neg hshort).trans (if_neg h))

end Sys2Proof.Proofs
end

section
/-! READ: the record of each selector, and the bytes of each record (R171, R187). -/
namespace Sys2Proof.Machine

/-! ### The bytes of the records -/

theorem encOptional_map {α : Type} (width : Nat) (o : Option α) (f : α → List Byte) :
    encOptional width (o.map f) = o.elim (zeros width) f := by
  cases o <;> rfl

theorem encPresence_map {α : Type} (width : Nat) (o : Option α) (f : α → List Byte) :
    encPresence width (o.map f) = o.elim (0 :: zeros width) (fun x => 1 :: f x) := by
  cases o <;> rfl

theorem encList_map {α : Type} (l : List α) (f : α → List Byte) :
    encList (l.map f) = byteOf l.length :: l.flatMap f := by
  rw [encList, List.length_map, List.flatMap_def]
  rfl

theorem ClimateRec.image_eq (c : ClimateRec) : c.image = [byteOf c.state.code]
    ++ c.reading.elim (List.replicate 6 0) (fun r => enc2 r.rh ++ encSigned2 r.t ++ encSigned2 r.td)
    ++ [byteOf c.validCount, byteOf c.candidate] ++ enc2 c.exposure ++ [if c.exposed then 1 else 0,
      if c.humidifier then 1 else 0, if c.dehumidifier then 1 else 0] := by
  unfold ClimateRec.image
  rw [encOptional_map]
  cases c.reading <;> rfl

theorem FireRec.image_eq (f : FireRec) : f.image = [byteOf f.state.code]
    ++ f.cause.elim [0] (fun k => [byteOf k.code]) ++ encZoneSet f.coupledSources
    ++ [if f.silenced then 1 else 0, if f.unmonitored then 1 else 0] := by
  unfold FireRec.image
  rw [encOptional_map]
  cases f.cause <;> rfl

theorem HatchRuntime.image_eq (r : HatchRuntime) : r.image = [byteOf r.position.code, if r.unitSilent then 1 else 0,
      if r.manual then 1 else 0, if r.moved then 1 else 0, if r.dwellDone then 1 else 0]
    ++ r.unlockRef.elim [0, 0, 0] (fun n => [1] ++ enc2 n) ++ [if r.urgent then 1 else 0] := by
  unfold HatchRuntime.image
  rw [encPresence_map]
  cases r.unlockRef <;> rfl

theorem Consignment.image_eq (c : Consignment) : c.image = enc2 c.number
    ++ [byteOf c.direction.code, byteOf c.hatch] ++ field c.courier 0 8 ++ enc4 c.created
    ++ [byteOf c.state.code, byteOf c.items.length]
    ++ c.items.flatMap (fun i => field i.id 0 8 ++ enc2 i.slot ++ [byteOf i.status.code])
    ++ [if c.acceptReceived then 1 else 0, if c.confirmReceived then 1 else 0]
    ++ c.caseFigures.elim (List.replicate 6 0) (fun f => encSigned2 f.meanT ++ enc2 f.meanRh ++ enc2 f.minutes)
    ++ c.caseTemp.elim [0, 0, 0] (fun t => [1] ++ encSigned2 t)
    ++ c.frozen.elim (List.replicate 10 0)
        (fun f => encSigned2 f.meanT ++ enc2 f.meanRh ++ enc2 f.minutes ++ encSigned2 f.innerT ++ enc2 f.innerRh)
    ++ c.abort.elim [0, 0] (fun a => [byteOf a.1.code, byteOf a.2.code])
    ++ c.endCause.elim [0] (fun e => [byteOf e.code]) := by
  unfold Consignment.image
  rw [encList_map]
  simp only [encOptional_map, encPresence_map, List.append_assoc]
  rfl

theorem AlertRec.image_eq (k : AlertKind) (r : AlertRec) :
    let sources := if k.isCondition then r.present else []
    r.image k = [if r.latched then 1 else 0, byteOf r.count] ++ r.lastSource.elim [0, 0] enc2
      ++ [if r.masked then 1 else 0, byteOf sources.length] ++ sources.flatMap enc2 := by
  intro sources
  have hlist : encList (if k.isCondition then r.present.map enc2 else []) = byteOf sources.length :: sources.flatMap enc2 := by
    rw [← encList_map]
    refine congrArg encList ?_
    show _ = (if k.isCondition then r.present else []).map enc2
    rw [apply_ite (List.map enc2)]
    rfl
  unfold AlertRec.image
  rw [hlist, encOptional_map]
  cases r.lastSource <;> rfl

theorem burnImage_eq (b : Option BurnRec) :
    burnImage b = b.elim [0, 0, 0, 0] (fun b => [1] ++ enc1 b.item.code ++ enc2 b.value) := by
  rw [burnImage, encPresence_map]
  rfl

theorem encSigned2_eq {i : Int} (hlo : -32768 ≤ i) (hhi : i < 32768) :
    encSigned2 i = enc2 (if i < 0 then i + 65536 else i).toNat := by
  refine congrArg enc2 ?_
  rw [BitVec.toNat_ofInt]
  split <;> omega

theorem enc4_eq (m : Minute) :
    enc4 m = [m.extractLsb' 24 8, m.extractLsb' 16 8, m.extractLsb' 8 8, m.extractLsb' 0 8] := by
  rw [← byteOf_eq_extractLsb', ← byteOf_eq_extractLsb', ← byteOf_eq_extractLsb', ← byteOf_eq_extractLsb', Nat.pow_zero,
    Nat.div_one]
  rfl

theorem mediaImage_custody (r : MediaRec) : r.image = field r.id 0 8 ++ [byteOf r.cls, byteOf r.home, byteOf r.custody.code,
      byteOf ((if r.manual then 1 else 0) + (if r.agent then 2 else 0))]
    ++ (match r.custody with
        | .checkedOut since (some due) reported => enc4 since ++ [1] ++ enc4 due ++ [if reported then 1 else 0]
          ++ List.replicate 6 0
        | .checkedOut since none reported => enc4 since ++ List.replicate 5 0 ++ [if reported then 1 else 0]
          ++ List.replicate 6 0
        | .acclimatizing release => List.replicate 10 0 ++ enc4 release ++ [0, 0]
        | .consigned n | .arriving n => List.replicate 14 0 ++ enc2 n
        | .shelved | .out => List.replicate 16 0) := by
  unfold MediaRec.image
  cases r.custody with
  | checkedOut since due reported => cases due <;> rfl
  | shelved | consigned n | out | arriving n | acclimatizing m => rfl

/-! ### The record of a selector -/

namespace State

/-- A request taken leaves all but the supervision timer and the handed events. -/
theorem requested_shape (s : State) (c : Instr) : ∃ t : Timer, s.requested c = (s.takeHanded c).setSupervision t := by
  by_cases h : s.mga.partState = .supervised ∧ s.mga.live.supervisionTimeout ≠ 0
  · exact ⟨s.tmb.supervision.trigger, if_pos h⟩
  · exact ⟨s.tmb.supervision, if_neg h⟩

section
variable {s : State} {tag : Byte} {sel : Nat} {index : List Byte}

theorem exec_read (hready : s.ready) : exec (.read tag sel index) s
    = .next ((s.requested (.read tag sel index)).readReply tag ((s.requested (.read tag sel index)).readResult sel index)) :=
  congrArg Host.Outcome.next (serve_eq hready _ _ _ _)

theorem indexed_below {i bound : Nat} (result : List Byte) (h : i < bound) : indexed i bound result = .ok result := if_pos h

theorem indexed_beyond {i bound : Nat} (result : List Byte) (h : bound ≤ i) : indexed i bound result = .error .range :=
  if_neg (Nat.not_lt.mpr h)

theorem readResult_unknown (h : 0x0A < sel) : s.readResult sel index = .error .malformed := by
  obtain ⟨n, rfl⟩ : ∃ n, sel = n + 11 := ⟨sel - 11, by omega⟩
  rfl

theorem readResult_consignment (hi : nat2 index 0 ≠ 0) :
    s.readResult 0x06 index = found ((s.consignment (nat2 index 0)).map Consignment.image) := if_neg hi

theorem readResult_media (hid : identOk index = true) :
    s.readResult 0x07 index = found ((s.mediaById index).map (fun p => p.2.image ++ enc2 p.1)) := if_pos hid

theorem readResult_slot (hi : nat2 index 0 < 4096) :
    s.readResult 0x08 index = found ((s.mediaAt (nat2 index 0)).map MediaRec.image) := if_pos hi

theorem partImage_eq (s : State) (hready : s.ready) : s.partImage
    = enc1 s.mga.partState.code ++ enc4 s.tmb.minuteClock ++ enc1 s.tmb.secondCount ++ s.tmb.supervision.image
      ++ s.tmb.retry.image ++ encBool s.tmb.retry.pending ++ [0, 0]
      ++ s.mga.window.elim [0xFF, 0, 0] (fun w => enc1 w.1.code ++ enc2 w.2)
      ++ s.mga.burn.elim [0, 0, 0, 0] (fun b => [1] ++ enc1 b.item.code ++ enc2 b.value)
      ++ enc2 s.mga.live.ownAddress ++ enc2 s.mga.live.siteAddress ++ enc2 s.mga.live.supervisionTimeout
      ++ enc2 s.mga.live.retryInterval ++ enc2 s.mga.live.vaultId := by
  obtain ⟨hrestart, hcheck⟩ := hready
  unfold partImage
  rw [hrestart, hcheck, burnImage_eq]
  simp only [List.append_assoc]
  cases s.mga.window <;> rfl

end

/-- The records READ shows are those before the request was taken; of the part's own, its supervision timer apart. -/
theorem images_requested (s : State) (c : Instr) : (s.requested c).zoneImage = s.zoneImage
    ∧ (s.requested c).probeCal = s.probeCal ∧ (s.requested c).probeState = s.probeState
    ∧ (s.requested c).inputKind = s.inputKind ∧ (s.requested c).inputStage = s.inputStage
    ∧ (s.requested c).stationImage = s.stationImage ∧ (s.requested c).hatchImage = s.hatchImage
    ∧ (s.requested c).alertsImage = s.alertsImage ∧ (s.requested c).storeImage = s.storeImage := by
  obtain ⟨t, ht⟩ := requested_shape s c
  rw [ht]
  exact ⟨rfl, rfl, rfl, rfl, rfl, rfl, rfl, rfl, rfl⟩

theorem stationImage_eq (s : State) (i : Nat) : s.stationImage i = s.entryImage .station i
    ++ [byteOf (s.stationRuntime i).missed, if (s.stationRuntime i).silent then 1 else 0]
    ++ lastForwardedImage (s.stationRuntime i).lastForwarded := by
  unfold stationImage
  simp only [List.append_assoc]
  rfl

theorem alertsImage_eq (s : State) : s.alertsImage = AlertKind.all.flatMap (fun k => AlertRec.image k (s.alertRec k.code))
    ++ [if s.alb.held then 1 else 0, if s.tmb.pulse.running then 1 else 0, if s.alertLow then 1 else 0] := by
  unfold alertsImage
  simp only [List.append_assoc]
  rfl

theorem storeImage_eq (s : State) : s.storeImage = StoreItem.all.flatMap (fun j => enc2 (s.mga.stored.get j)
      ++ enc1 (s.mga.burns.get j) ++ enc2 (s.mga.live.get j))
    ++ s.mga.burn.elim [0, 0, 0, 0] (fun b => [1] ++ enc1 b.item.code ++ enc2 b.value) := by
  rw [storeImage, burnImage_eq]

theorem append_congr {a b c d : List Byte} (hfront : a = b) (hback : c = d) : a ++ c = b ++ d := by rw [hfront, hback]

end State
end Sys2Proof.Machine

namespace Sys2Proof.Proofs
open Sys2Proof.Machine Sys2Proof.Machine.State

/-- Settles O51: the record of each selector read in the state before, and its bytes record by record. -/
theorem readAnswersEachSelector : Obligations.ReadAnswersEachSelector := by
  unfold Obligations.ReadAnswersEachSelector
  refine ⟨fun s tag sel index hready => ?selectors, ?images⟩
  case selectors =>
    intro u i done only
    have hexec : exec (.read tag sel index) s = .next (u.readReply tag (u.readResult sel index)) := exec_read hready
    have hdone {results : List Byte} (h : u.readResult sel index = .ok results) : done results :=
      exec_next_of_eq hexec (congrArg (u.readReply tag) h)
    have honly {st : Status} (h : u.readResult sel index = .error st) : only st :=
      exec_next_of_eq hexec (congrArg (u.readReply tag) h)
    obtain ⟨-, -, -, -, -, -, -, -, hmga, -, -, hsecond, hminute, -, -, -, hretry, -⟩ := requested_fields s (.read tag sel index)
    obtain ⟨-, -, -, -, -, -, -, hmediaAt, hmedia, -, -, -, hconsignment, -⟩ := requested_accessors s (.read tag sel index)
    obtain ⟨hzone, hprobe, hprobeState, hkind, hstage, hstation, hhatch, halerts, hstore⟩ :=
      images_requested s (.read tag sel index)
    have hreadyU : u.ready := by rw [ready, hmga]; exact hready
    have hbelow {bound : Nat} {result results : List Byte} (hr : u.readResult sel index = indexed i bound result)
        (heq : result = results) : (i < bound → done results) ∧ (bound ≤ i → only .range) :=
      ⟨fun hi => hdone (hr.trans ((indexed_below _ hi).trans (congrArg Except.ok heq))),
        fun hi => honly (hr.trans (indexed_beyond _ hi))⟩
    have hnone {α : Type} {o : Option α} {f : α → List Byte} (hr : u.readResult sel index = found (o.map f)) (ho : o = none) :
        only .notFound := honly (by rw [hr, ho]; rfl)
    have hsome {α : Type} {o : Option α} {f : α → List Byte} {x : α} (hr : u.readResult sel index = found (o.map f))
        (ho : o = some x) : done (f x) := hdone (by rw [hr, ho]; rfl)
    refine ⟨fun h => ?part, fun h => ?zone, fun h => ?probe, fun h => ?input, fun h => ?station, fun h => ?hatch,
      fun h => ?consignment, fun h hlen => ?mediaById, fun h => ?slot, fun h => ?alerts, fun h => ?store,
      fun h => honly (readResult_unknown h)⟩ <;> subst h
    case part =>
      refine hdone (congrArg Except.ok ((partImage_eq u hreadyU).trans ?_))
      rw [hmga, hminute, hsecond, hretry]
      cases s.mga.window <;> cases s.mga.burn <;> rfl
    case zone => exact hbelow rfl (congrFun hzone i)
    case probe => exact hbelow rfl (by rw [hprobe, hprobeState]; rfl)
    case input => exact hbelow rfl (by rw [hkind, hstage]; rfl)
    case station => exact hbelow rfl ((congrFun hstation i).trans (stationImage_eq s i))
    case hatch => exact hbelow rfl (congrFun hhatch i)
    case consignment =>
      have hsame : u.consignment i = s.consignment i := congrFun hconsignment i
      exact ⟨fun hi => honly (if_pos hi), fun hi hc => hnone (readResult_consignment hi) (hsame.trans hc),
        fun c hi hc => hsome (readResult_consignment hi) (hsame.trans hc)⟩
    case mediaById =>
      have hsame : u.mediaById index = s.mediaById index := congrFun hmedia index
      refine ⟨fun hchar => honly (if_neg fun hid => ?_), fun hchar hm => ?_, fun slot r hchar hm => ?_⟩
      · exact Bool.noConfusion (hchar.symm.trans ((identOk_iff index).mp hid).2)
      · exact hnone (readResult_media ((identOk_iff index).mpr ⟨hlen, hchar⟩)) (hsame.trans hm)
      · exact hsome (f := fun p : Nat × MediaRec => p.2.image ++ enc2 p.1) (x := (slot, r))
          (readResult_media ((identOk_iff index).mpr ⟨hlen, hchar⟩)) (hsame.trans hm)
    case slot =>
      have hsame : u.mediaAt i = s.mediaAt i := congrFun hmediaAt i
      exact ⟨fun hi => honly (if_neg (Nat.not_lt.mpr hi)), fun hi hm => hnone (readResult_slot hi) (hsame.trans hm),
        fun r hi hm => hsome (readResult_slot hi) (hsame.trans hm)⟩
    case alerts => exact hdone (congrArg Except.ok (halerts.trans (alertsImage_eq s)))
    case store =>
      refine hdone (congrArg Except.ok (hstore.trans ((storeImage_eq s).trans ?_)))
      cases s.mga.burn <;> rfl
  case images =>
    intro yes
    refine ⟨fun t => ?_, fun rh t => ?_, rfl, rfl, rfl, fun n bytes => rfl, rfl, fun c => ?_, fun f => ?_, fun r => ?_,
      fun c => ?_, fun r => ?_, fun k r => ?_, rfl, rfl, rfl, rfl, rfl, rfl, fun _ _ _ _ _ => rfl, rfl, rfl, rfl, rfl, rfl,
      rfl, rfl, fun n => rfl, fun i hlo hhi => encSigned2_eq hlo hhi, enc4_eq⟩
    · rfl
    · rfl
    · exact c.image_eq.trans (by cases c.reading <;> rfl)
    · exact f.image_eq.trans (by cases f.cause <;> rfl)
    · exact r.image_eq.trans (by cases r.unlockRef <;> rfl)
    · refine c.image_eq.trans (append_congr (append_congr (append_congr (append_congr
        (append_congr rfl ?figures) ?temp) ?frozen) ?abort) ?ending)
      case figures => cases c.caseFigures <;> rfl
      case temp => cases c.caseTemp <;> rfl
      case frozen => cases c.frozen <;> rfl
      case abort => cases c.abort <;> rfl
      case ending => cases c.endCause <;> rfl
    · exact (mediaImage_custody r).trans (by cases r.custody <;> rfl)
    · exact (AlertRec.image_eq k r).trans (by cases r.lastSource <;> rfl)

end Sys2Proof.Proofs
end

section
/-! The table window: what storing an entry leaves alone, and TABLE OPEN, TABLE WRITE and TABLE READ (R172 to R174). -/
namespace Sys2Proof.Machine

theorem TableId.ofCode_code {n : Nat} {t : TableId} (h : TableId.ofCode n = some t) : t.code = n := by
  match n, h with
  | 0, rfl | 1, rfl | 2, rfl | 3, rfl | 4, rfl | 5, rfl | 6, rfl | 7, rfl => rfl

theorem TableId.ofCode_beyond {n : Nat} (h : 7 < n) : TableId.ofCode n = none := by
  obtain ⟨m, rfl⟩ : ∃ m, n = m + 8 := ⟨n - 8, by omega⟩
  rfl

namespace State

/-! ### An entry stored -/

/-- A window open on a station entry is marked, so that it counts against no station (R10). -/
def windowMarked (s : State) (i : Nat) : State :=
  match s.fsp.segment with
  | .awaiting j addr old => { s with fsp := { s.fsp with segment := .awaiting j addr (old || decide (j = i)) } }
  | _ => s

theorem windowMarked_awaiting {s : State} {j addr : Nat} {old : Bool} (h : s.fsp.segment = .awaiting j addr old) (i : Nat) :
    s.windowMarked i = { s with fsp := { s.fsp with segment := .awaiting j addr (old || decide (j = i)) } } := by
  unfold windowMarked
  rw [h]

/-- A station entry stored, up to its place in the table: SILENT taken off, the runtime fresh, an open window marked. -/
def stationCleared (s : State) (i : Nat) : State :=
  ((if (s.stationRuntime i).silent then s.lower .stationSilent (s.station i).addr else s).setStationRuntime i
    ⟨0, false, none⟩).windowMarked i

theorem storeStation_eq (s : State) (i : Nat) (e : StationEntry) : s.storeStation i e
    = if s.stationList = [] ∧ e.addr ≠ 0 then ((s.stationCleared i).setStation i e).arbitrateIfIdle
      else (s.stationCleared i).setStation i e := by
  unfold storeStation stationCleared
  dsimp only
  generalize hb : (if (s.stationRuntime i).silent then s.lower .stationSilent (s.station i).addr else s).setStationRuntime i
    .fresh = b
  rw [show StationRuntime.fresh = ⟨0, false, none⟩ from rfl] at hb
  rw [hb]
  have hmark : (match b.fsp.segment with
      | .awaiting j addr _ => if j = i then b.setSegment (.awaiting j addr true) else b
      | .idle | .sending _ => b) = b.windowMarked i := by
    cases hseg : b.fsp.segment with
    | awaiting j addr old =>
      rw [windowMarked_awaiting hseg]
      by_cases hj : j = i
      · refine (if_pos hj).trans ?_
        rw [decide_eq_true hj, Bool.or_true]
        rfl
      · refine (if_neg hj).trans ?_
        rw [decide_eq_false hj, Bool.or_false, ← hseg]
    | idle => unfold windowMarked; rw [hseg]
    | sending g => unfold windowMarked; rw [hseg]
  exact congrArg (fun c : State => if s.stationList = [] ∧ e.addr ≠ 0 then (c.setStation i e).arbitrateIfIdle
    else c.setStation i e) hmark

theorem arbitrateIfIdle_sent (s : State) : Sent s s.arbitrateIfIdle := (sent_keeps s).arbitrateIfIdle (Sent.rfl' s)

/-- What clearing the runtime of a station entry leaves: all but alerts, the runtime and the mark of the window. -/
theorem stationCleared_keeps (s : State) (i : Nat) : (s.stationCleared i).cgt.stations = s.cgt.stations
    ∧ (s.stationCleared i).mga = s.mga := by
  have hwindow (b : State) : (b.windowMarked i).cgt = b.cgt ∧ (b.windowMarked i).mga = b.mga := by
    unfold windowMarked
    cases b.fsp.segment <;> exact ⟨rfl, rfl⟩
  obtain ⟨hcgt, hmga⟩ := hwindow ((if (s.stationRuntime i).silent then s.lower .stationSilent (s.station i).addr
    else s).setStationRuntime i ⟨0, false, none⟩)
  have hlower : Reported s (if (s.stationRuntime i).silent then s.lower .stationSilent (s.station i).addr else s) := by
    split
    · exact lower_reported s _ _
    · exact Reported.rfl' s
  exact ⟨(congrArg Cgt.stations hcgt).trans (congrArg Cgt.stations hlower.cgt :), hmga.trans hlower.mga⟩

theorem station_storeStation (s : State) (i : Nat) (e : StationEntry) : (s.storeStation i e).station i = e
    ∧ (s.storeStation i e).mga = s.mga := by
  have hstored : ((s.stationCleared i).setStation i e).station i = e := by
    rw [station_setStation, if_pos rfl]
  have hmga : ((s.stationCleared i).setStation i e).mga = s.mga := (s.stationCleared_keeps i).2
  rw [storeStation_eq]
  split
  · have hsent := arbitrateIfIdle_sent ((s.stationCleared i).setStation i e)
    refine ⟨?_, hsent.mga.trans hmga⟩
    rw [station, hsent.cgt]
    exact hstored
  · exact ⟨hstored, hmga⟩

/-- Storing an entry changes nothing of the Management Agent. -/
theorem mga_storeEntry (s : State) (t : TableId) (i : Nat) (p : List Byte) : (s.storeEntry t i p).mga = s.mga := by
  cases t with
  | station =>
    unfold storeEntry
    dsimp only
    cases StationEntry.ofImage p with
    | none => rfl
    | some e => exact (station_storeStation s i e).2
  | zone =>
    unfold storeEntry
    dsimp only
    cases ZoneEntry.ofImage p with
    | none => rfl
    | some e =>
      obtain ⟨cls, hcls, -⟩ := testExposed_climateReported (s.setZone i e) i
      exact hcls.mga
  | fireInput => unfold storeEntry; dsimp only; cases InputKind.ofCode (nat1 p 0) <;> rfl
  | actuator => unfold storeEntry; dsimp only; cases Function.ofCode (nat1 p 0) <;> rfl
  | hatch => unfold storeEntry; dsimp only; cases HatchEntry.ofImage p <;> rfl
  | profile | probe | cls => rfl

theorem mga_storeEntries (s : State) (t : TableId) (pointer count : Nat) (images : List Byte) :
    (s.storeEntries t pointer count images).mga = s.mga :=
  foldl_keeps (P := fun v => v.mga = s.mga) _ (fun v _ hv => (mga_storeEntry v t _ _).trans hv) _ s rfl

/-! ### The requests -/

section
variable {s : State} {tag : Byte} {t : TableId} {p count start table : Nat} {images : List Byte}

theorem exec_tableOpen (hready : s.ready) : exec (.tableOpen tag table start) s
    = .next ((s.requested (.tableOpen tag table start)).tableOpenRequest tag table start) :=
  congrArg Host.Outcome.next (serve_eq hready _ _ _ _)

theorem exec_tableWrite (hready : s.ready) : exec (.tableWrite tag count images) s
    = .next ((s.requested (.tableWrite tag count images)).tableWriteRequest tag count images) :=
  congrArg Host.Outcome.next (serve_eq hready _ _ _ _)

theorem exec_tableRead (hready : s.ready) : exec (.tableRead tag count) s
    = .next ((s.requested (.tableRead tag count)).tableReadRequest tag count) :=
  congrArg Host.Outcome.next (serve_eq hready _ _ _ _)

theorem tableOpenRequest_malformed (h : 7 < table) :
    s.tableOpenRequest tag table start = s.reply 0x03 tag .malformed [] := by
  unfold tableOpenRequest
  rw [TableId.ofCode_beyond h]
  rfl

theorem tableOpenRequest_known (h : TableId.ofCode table = some t) : s.tableOpenRequest tag table start
    = if start < t.size then
        (s.setMga { s.mga with window := some (t, start) }).reply 0x03 tag .done (enc1 table ++ enc2 start)
      else s.reply 0x03 tag .range [] := by
  unfold tableOpenRequest
  rw [h, ← TableId.ofCode_code h]
  rfl

theorem tableWriteRequest_noWindow (hcount : count ≠ 0) (h : s.mga.window = none) :
    s.tableWriteRequest tag count images = s.replyRefused 0x04 tag .noWindow [] := by
  unfold tableWriteRequest
  rw [if_neg hcount, h]
  rfl

/-- The outcome of TABLE WRITE once every check before the images has passed. -/
def writeImages (s : State) (tag : Byte) (t : TableId) (p count : Nat) (images : List Byte) : State :=
  match (List.range count).find? (fun k => !imageAccepted t (imageOf t images k)) with
  | some k => s.replyRefused 0x04 tag .badEntry (enc1 (p + k))
  | none => ((s.storeEntries t p count images).setMga { s.mga with window := some (t, p + count) }).reply 0x04 tag .done
      (enc2 (p + count))

theorem tableWriteRequest_open (hcount : count ≠ 0) (h : s.mga.window = some (t, p)) :
    s.tableWriteRequest tag count images
      = if images.length ≠ count * t.imageSize then s.reply 0x04 tag .malformed []
        else if s.active then s.replyRefused 0x04 tag .notInConfig []
        else if t.size < p + count then s.reply 0x04 tag .range []
        else s.writeImages tag t p count images := by
  unfold tableWriteRequest writeImages
  rw [if_neg hcount, h]
  dsimp only
  rw [mga_storeEntries]
  cases (List.range count).find? (fun k => !imageAccepted t (imageOf t images k)) <;> rfl

theorem writeImages_bad {k : Nat} (hk : k < count) (hbad : imageAccepted t (imageOf t images k) = false)
    (hbefore : ∀ j, j < k → imageAccepted t (imageOf t images j) = true) :
    s.writeImages tag t p count images = s.replyRefused 0x04 tag .badEntry (enc1 (p + k)) := by
  have hfind : (List.range count).find? (fun k => !imageAccepted t (imageOf t images k)) = some k :=
    List.find?_range_eq_some.mpr ⟨by rw [hbad]; rfl, List.mem_range.mpr hk, fun j hj => by rw [hbefore j hj]; rfl⟩
  unfold writeImages
  rw [hfind]

theorem writeImages_good (hgood : ∀ k, k < count → imageAccepted t (imageOf t images k) = true) :
    s.writeImages tag t p count images
      = ((s.storeEntries t p count images).setMga { s.mga with window := some (t, p + count) }).reply 0x04 tag .done
          (enc2 (p + count)) := by
  have hfind : (List.range count).find? (fun k => !imageAccepted t (imageOf t images k)) = none :=
    List.find?_range_eq_none.mpr fun k hk => by rw [hgood k hk]; rfl
  unfold writeImages
  rw [hfind]

theorem tableReadRequest_noWindow (hcount : count ≠ 0) (h : s.mga.window = none) :
    s.tableReadRequest tag count = s.replyRefused 0x05 tag .noWindow [] := by
  unfold tableReadRequest
  rw [if_neg hcount, h]
  rfl

theorem tableReadRequest_open (hcount : count ≠ 0) (h : s.mga.window = some (t, p)) : s.tableReadRequest tag count
    = if 248 < count * t.imageSize then s.reply 0x05 tag .malformed []
      else if t.size < p + count then s.reply 0x05 tag .range []
      else (s.setMga { s.mga with window := some (t, p + count) }).reply 0x05 tag .done
        (enc1 t.code ++ enc2 (p + count) ++ enc1 count ++ (List.range count).flatMap (fun k => s.entryImage t (p + k))) := by
  unfold tableReadRequest
  rw [if_neg hcount, h]
  rfl

end

theorem entryImage_requested (s : State) (c : Instr) : (s.requested c).entryImage = s.entryImage := by
  obtain ⟨t, ht⟩ := requested_shape s c
  rw [ht]
  exact funext fun t => by cases t <;> rfl

theorem active_requested (s : State) (c : Instr) : (s.requested c).active = s.active := by
  rw [active, mga_requested]
  rfl

end State
end Sys2Proof.Machine

namespace Sys2Proof.Proofs
open Sys2Proof.Machine Sys2Proof.Machine.State

/-- Settles O52: each request in the order of its checks; a write stores and advances (`mga_storeEntries`). -/
theorem tableWindowOpensWritesReads : Obligations.TableWindowOpensWritesReads := by
  unfold Obligations.TableWindowOpensWritesReads
  intro s tag hready
  refine ⟨fun table start => ?opens, fun count images => ?writes, fun count => ?reads⟩
  case opens =>
    intro u
    have hmga : u.mga = s.mga := mga_requested s _
    have hexec : exec (.tableOpen tag table start) s = .next (u.tableOpenRequest tag table start) := exec_tableOpen hready
    refine ⟨fun h => exec_next_of_eq hexec (tableOpenRequest_malformed h), fun t ht => ?_⟩
    have hopen := exec_next_of_eq hexec (tableOpenRequest_known ht)
    rw [hmga] at hopen
    exact ⟨fun h => exec_next_of_eq hopen (if_neg (Nat.not_lt.mpr h)), fun h => exec_next_of_eq hopen (if_pos h)⟩
  case writes =>
    intro c u at_
    have hmga : u.mga = s.mga := mga_requested s c
    have hactive : u.active = s.active := active_requested s c
    have hexec : exec c s = .next (u.tableWriteRequest tag count images) := exec_tableWrite hready
    refine ⟨fun h => exec_next_of_eq hexec (if_pos h),
      fun hcount h => exec_next_of_eq hexec (tableWriteRequest_noWindow hcount (hmga ▸ h)), fun t p hcount h => ?_⟩
    have hopen := exec_next_of_eq hexec (tableWriteRequest_open (images := images) (tag := tag) hcount (hmga ▸ h))
    refine ⟨fun hlen => exec_next_of_eq hopen (if_pos hlen), fun hlen ha => ?_, fun hlen ha hsize => ?_,
      fun hlen ha hsize => ?_⟩
    · exact exec_next_of_eq hopen ((if_neg (Classical.not_not.mpr hlen)).trans (if_pos (hactive.trans ha)))
    · exact exec_next_of_eq hopen ((if_neg (Classical.not_not.mpr hlen)).trans ((if_neg (Bool.eq_false_iff.mp (hactive.trans ha))).trans
        (if_pos hsize)))
    · have himages : exec c s = .next (u.writeImages tag t p count images) :=
        exec_next_of_eq hopen ((if_neg (Classical.not_not.mpr hlen)).trans
          ((if_neg (Bool.eq_false_iff.mp (hactive.trans ha))).trans (if_neg (Nat.not_lt.mpr hsize))))
      refine ⟨fun k hk hbad hbefore => exec_next_of_eq himages (writeImages_bad hk hbad hbefore), fun hgood => ?_⟩
      have hdone := exec_next_of_eq himages (writeImages_good hgood)
      rwa [hmga] at hdone
  case reads =>
    intro c u
    have hmga : u.mga = s.mga := mga_requested s c
    have himage : u.entryImage = s.entryImage := entryImage_requested s c
    have hexec : exec c s = .next (u.tableReadRequest tag count) := exec_tableRead hready
    refine ⟨fun h => exec_next_of_eq hexec (if_pos h),
      fun hcount h => exec_next_of_eq hexec (tableReadRequest_noWindow hcount (hmga ▸ h)), fun t p hcount h => ?_⟩
    have hopen := exec_next_of_eq hexec (tableReadRequest_open (tag := tag) hcount (hmga ▸ h))
    rw [hmga, himage] at hopen
    exact ⟨fun hlong => exec_next_of_eq hopen (if_pos hlong),
      fun hlong hsize => exec_next_of_eq hopen ((if_neg (Nat.not_lt.mpr hlong)).trans (if_pos hsize)),
      fun hlong hsize => exec_next_of_eq hopen ((if_neg (Nat.not_lt.mpr hlong)).trans (if_neg (Nat.not_lt.mpr hsize)))⟩

end Sys2Proof.Proofs
end

section
/-! The codes of the tables, and which entry an image gives (11.6). -/
namespace Sys2Proof.Machine

theorem clampNat_eq_min_max {lo hi : Nat} (h : lo ≤ hi) (n : Nat) : clampNat lo hi n = min hi (max lo n) := by
  unfold clampNat
  split
  · omega
  · split <;> omega

/-! ### Codes -/

/-- The codes of a field are the numbers up to `last`, one for each value. -/
structure IsCoding {α : Type} (ofCode : Nat → Option α) (code : α → Nat) (last : Nat) : Prop where
  reads_code : ∀ a, ofCode (code a) = some a
  code_reads : ∀ n, n ≤ last → (ofCode n).map code = some n
  beyond : ∀ n, last < n → ofCode n = none

section
variable {α : Type} {ofCode : Nat → Option α} {code : α → Nat} {last n : Nat} (h : IsCoding ofCode code last)
include h

theorem IsCoding.eq_some_iff {a : α} : ofCode n = some a ↔ code a = n := by
  constructor
  · intro ha
    rcases Nat.lt_or_ge last n with hn | hn
    · rw [h.beyond n hn] at ha
      cases ha
    · have hread := h.code_reads n hn
      rw [ha] at hread
      exact Option.some.inj hread
  · rintro rfl
    exact h.reads_code a

theorem IsCoding.exists_iff : (∃ a, code a = n) ↔ n ≤ last := by
  constructor
  · rintro ⟨a, rfl⟩
    refine Decidable.byContradiction fun hn => ?_
    have hnone := h.beyond (code a) (Nat.lt_of_not_le hn)
    rw [h.reads_code a] at hnone
    cases hnone
  · intro hn
    have hread := h.code_reads n hn
    obtain ⟨a, -, ha⟩ := Option.map_eq_some_iff.mp hread
    exact ⟨a, ha⟩

end

/-- A field that holds no code beyond the last. -/
theorem noneBeyond {α : Type} {ofCode : Nat → Option α} {last : Nat} (h : ∀ m, ofCode (m + (last + 1)) = none) (n : Nat)
    (hn : last < n) : ofCode n = none := by
  have := h (n - (last + 1))
  rwa [Nat.sub_add_cancel hn] at this

theorem stationKind_coding : IsCoding StationKind.ofCode StationKind.code 6 where
  reads_code a := by cases a <;> rfl
  code_reads := by decide
  beyond := noneBeyond fun _ => rfl

theorem role_coding : IsCoding Role.ofCode Role.code 2 where
  reads_code a := by cases a <;> rfl
  code_reads := by decide
  beyond := noneBeyond fun _ => rfl

theorem policy_coding : IsCoding Policy.ofCode Policy.code 2 where
  reads_code a := by cases a <;> rfl
  code_reads := by decide
  beyond := noneBeyond fun _ => rfl

theorem function_coding : IsCoding Function.ofCode Function.code 5 where
  reads_code a := by cases a <;> rfl
  code_reads := by decide
  beyond := noneBeyond fun _ => rfl

theorem inputKind_coding : IsCoding InputKind.ofCode InputKind.code 4 where
  reads_code a := by cases a <;> rfl
  code_reads := by decide
  beyond := noneBeyond fun _ => rfl

theorem takeLimit_coding : IsCoding TakeLimit.ofCode TakeLimit.code 1 where
  reads_code a := by cases a <;> rfl
  code_reads := by decide
  beyond := noneBeyond fun _ => rfl

theorem hatchMode_coding : IsCoding HatchMode.ofCode HatchMode.code 2 where
  reads_code a := by cases a <;> rfl
  code_reads := by decide
  beyond := noneBeyond fun _ => rfl

theorem yesNo_coding : IsCoding yesNoOfCode (fun b => if b then 1 else 0) 1 where
  reads_code b := by cases b <;> rfl
  code_reads := by decide
  beyond := noneBeyond fun _ => rfl

theorem zoneOfCode_eq_some_iff {n z : Nat} : zoneOfCode n = some z ↔ n = z ∧ n < 16 := by
  unfold zoneOfCode
  split
  · exact ⟨fun h => ⟨Option.some.inj h, ‹_›⟩, fun h => congrArg some h.1⟩
  · exact ⟨nofun, fun h => absurd h.2 ‹_›⟩

theorem zoneOrNoneOfCode_eq_some_iff {n : Nat} {o : Option Nat} : zoneOrNoneOfCode n = some o
    ↔ (o = none → n = 255) ∧ ∀ z, o = some z → n = z ∧ z < 16 := by
  unfold zoneOrNoneOfCode
  by_cases hnone : n = 0xFF
  · rw [if_pos hnone]
    cases o with
    | none => exact ⟨fun _ => ⟨fun _ => hnone, nofun⟩, fun _ => rfl⟩
    | some z => exact ⟨nofun, fun h => absurd (h.2 z rfl) (by omega)⟩
  · rw [if_neg hnone]
    cases o with
    | none => exact ⟨fun h => (by split at h <;> cases h), fun h => absurd (h.1 rfl) hnone⟩
    | some z =>
      constructor
      · intro h
        split at h
        · cases h
          exact ⟨nofun, fun z hz => by cases hz; exact ⟨rfl, ‹_›⟩⟩
        · cases h
      · intro h
        obtain ⟨rfl, hz⟩ := h.2 z rfl
        exact if_pos hz

theorem exists_zoneOrNone {n : Nat} : (∃ o : Option Nat, (o = none → n = 255) ∧ ∀ z, o = some z → n = z ∧ z < 16)
    ↔ n < 16 ∨ n = 255 := by
  constructor
  · rintro ⟨o, hnone, hsome⟩
    cases o with
    | none => exact .inr (hnone rfl)
    | some z => obtain ⟨rfl, hz⟩ := hsome z rfl; exact .inl hz
  · rintro (h | h)
    · exact ⟨some n, nofun, fun z hz => by cases hz; exact ⟨rfl, h⟩⟩
    · exact ⟨none, fun _ => h, nofun⟩

theorem addrOfCode_eq_some_iff {n a : Nat} : addrOfCode n = some a ↔ n ≤ 254 ∧ a = n := by
  unfold addrOfCode
  split
  · exact ⟨fun h => ⟨‹_›, (Option.some.inj h).symm⟩, fun h => congrArg some h.2.symm⟩
  · exact ⟨nofun, fun h => absurd h.1 ‹_›⟩

/-- The kind index by the code of the kind (R18). -/
theorem clampKindIndex_eq (k : StationKind) (n : Nat) : clampKindIndex k n
    = if k.code = 0 ∨ k.code = 5 then min 63 (max 0 n) else if k.code = 1 then min 95 (max 0 n) else 0 := by
  have h63 := clampNat_eq_min_max (Nat.zero_le 63) n
  have h95 := clampNat_eq_min_max (Nat.zero_le 95) n
  cases k with
  | probe | actuator => exact h63
  | fireInput => exact h95
  | reader | hatchUnit | courierTerminal | other => rfl

/-! ### Entries from images -/

theorem StationEntry.ofImage_eq_some_iff {p : List Byte} {e : StationEntry} : StationEntry.ofImage p = some e
    ↔ nat1 p 0 ≤ 254 ∧ e.addr = nat1 p 0 ∧ e.kind.code = nat1 p 1 ∧ (e.zone = none → nat1 p 2 = 255)
      ∧ (∀ z, e.zone = some z → nat1 p 2 = z ∧ z < 16) ∧ e.role.code = nat1 p 3 ∧ e.policy.code = nat1 p 5
      ∧ e.index = clampKindIndex e.kind (nat1 p 4) := by
  simp only [StationEntry.ofImage, Option.bind_eq_bind, Option.bind_eq_some_iff, Option.pure_def, Option.some.injEq,
    addrOfCode_eq_some_iff, stationKind_coding.eq_some_iff, zoneOrNoneOfCode_eq_some_iff, role_coding.eq_some_iff,
    policy_coding.eq_some_iff]
  constructor
  · rintro ⟨a, ⟨hle, rfl⟩, k, hk, z, ⟨hnone, hsome⟩, r, hr, q, hq, rfl⟩
    exact ⟨hle, rfl, hk, hnone, hsome, hr, hq, rfl⟩
  · obtain ⟨a, k, z, r, i, q⟩ := e
    rintro ⟨hle, rfl, hk, hnone, hsome, hr, hq, hi⟩
    have hi : i = clampKindIndex k (nat1 p 4) := hi
    exact ⟨_, ⟨hle, rfl⟩, k, hk, z, ⟨hnone, hsome⟩, r, hr, q, hq, by rw [hi]⟩

theorem ZoneEntry.ofImage_eq_some_iff {p : List Byte} {e : ZoneEntry} : ZoneEntry.ofImage p = some e
    ↔ e.profile = clampNat 0 3 (nat1 p 0) ∧ e.takeLimit.code = nat1 p 1 ∧ e.exposureLimit = nat2 p 2
      ∧ e.coincidence = clampNat 0 4 (nat1 p 4) ∧ (if e.fitted then 1 else 0) = nat1 p 5
      ∧ (if e.autoRelease then 1 else 0) = nat1 p 6 ∧ e.releaseDelay = clampNat 10 120 (nat1 p 7)
      ∧ e.coupledCount = clampNat 0 4 (nat1 p 8) ∧ e.coupled = [nat1 p 9, nat1 p 10, nat1 p 11, nat1 p 12]
      ∧ ∀ z ∈ e.coupled, z < 16 := by
  simp only [ZoneEntry.ofImage, Option.bind_eq_bind, Option.bind_eq_some_iff, Option.pure_def, Option.some.injEq,
    takeLimit_coding.eq_some_iff, yesNo_coding.eq_some_iff, zoneOfCode_eq_some_iff]
  constructor
  · rintro ⟨l, hl, f, hf, a, ha, c0, ⟨rfl, h0⟩, c1, ⟨rfl, h1⟩, c2, ⟨rfl, h2⟩, c3, ⟨rfl, h3⟩, rfl⟩
    refine ⟨rfl, hl, rfl, rfl, hf, ha, rfl, rfl, rfl, ?_⟩
    simp only [List.forall_mem_cons]
    exact ⟨h0, h1, h2, h3, nofun⟩
  · obtain ⟨pr, l, x, co, f, a, d, n, c⟩ := e
    rintro ⟨rfl, hl, rfl, rfl, hf, ha, rfl, rfl, rfl, hc⟩
    simp only [List.forall_mem_cons] at hc
    obtain ⟨h0, h1, h2, h3, -⟩ := hc
    exact ⟨l, hl, f, hf, a, ha, _, ⟨rfl, h0⟩, _, ⟨rfl, h1⟩, _, ⟨rfl, h2⟩, _, ⟨rfl, h3⟩, rfl⟩

theorem HatchEntry.ofImage_eq_some_iff {p : List Byte} {e : HatchEntry} : HatchEntry.ofImage p = some e
    ↔ e.unit = nat1 p 0 ∧ e.unit ≤ 254 ∧ e.terminal = nat1 p 1 ∧ e.witness = nat1 p 2
      ∧ (e.unit ≠ 0 → 1 ≤ e.terminal ∧ e.terminal ≤ 254 ∧ 1 ≤ e.witness ∧ e.witness ≤ 254)
      ∧ e.inner = nat1 p 3 ∧ e.inner < 16 ∧ (e.outer = none → nat1 p 4 = 255)
      ∧ (∀ z, e.outer = some z → nat1 p 4 = z ∧ z < 16) ∧ e.mode.code = nat1 p 5
      ∧ e.acceptTimeout = clampNat 10 600 (nat2 p 6) ∧ e.openTimeout = clampNat 5 120 (nat2 p 8)
      ∧ e.transferTimeout = clampNat 30 1800 (nat2 p 10) ∧ (if e.transferRetrigger then 1 else 0) = nat1 p 12
      ∧ e.closeTimeout = clampNat 5 300 (nat2 p 13) ∧ e.equalizeTimeout = clampNat 60 3600 (nat2 p 15)
      ∧ e.dwell = clampNat 1 30 (nat1 p 17) ∧ e.life = clampNat 0 10080 (nat2 p 18)
      ∧ e.margin = clampNat 0 100 (nat1 p 20) := by
  have hstation {unit n a : Nat} : (if unit = 0 ∨ (1 ≤ n ∧ n ≤ 254) then some n else none) = some a
      ↔ n = a ∧ (unit ≠ 0 → 1 ≤ n ∧ n ≤ 254) := by
    split
    · rename_i h
      exact ⟨fun heq => ⟨Option.some.inj heq, fun hu => h.resolve_left hu⟩, fun heq => congrArg some heq.1⟩
    · rename_i h
      exact ⟨nofun, fun heq => absurd (Classical.or_iff_not_imp_left.mpr heq.2) h⟩
  simp only [HatchEntry.ofImage, Option.bind_eq_bind, Option.bind_eq_some_iff, Option.pure_def, Option.some.injEq,
    addrOfCode_eq_some_iff, hstation, zoneOfCode_eq_some_iff, zoneOrNoneOfCode_eq_some_iff, hatchMode_coding.eq_some_iff,
    yesNo_coding.eq_some_iff]
  constructor
  · rintro ⟨u, ⟨hu, rfl⟩, t, ⟨rfl, ht⟩, w, ⟨rfl, hw⟩, i, ⟨rfl, hi⟩, o, ⟨hnone, hsome⟩, m, hm, b, hb, rfl⟩
    exact ⟨rfl, hu, rfl, rfl, fun h => ⟨(ht h).1, (ht h).2, hw h⟩, rfl, hi, hnone, hsome, hm, rfl, rfl, rfl, hb, rfl, rfl,
      rfl, rfl, rfl⟩
  · obtain ⟨u, t, w, i, o, m, a1, a2, a3, b, a4, a5, a6, a7, a8⟩ := e
    rintro ⟨rfl, hu, rfl, rfl, hused, rfl, hi, hnone, hsome, hm, rfl, rfl, rfl, hb, rfl, rfl, rfl, rfl, rfl⟩
    exact ⟨_, ⟨hu, rfl⟩, _, ⟨rfl, fun h => ⟨(hused h).1, (hused h).2.1⟩⟩, _, ⟨rfl, fun h => (hused h).2.2⟩, _, ⟨rfl, hi⟩, o,
      ⟨hnone, hsome⟩, m, hm, b, hb, rfl⟩

end Sys2Proof.Machine
end

section
/-! Which images are accepted, and the image a stored entry is read back in (R173, R174, 11.6). -/
namespace Sys2Proof.Machine

/-! ### Accepted images -/

section
variable {p : List Byte}

theorem accepted_station_iff : imageAccepted .station p = true
    ↔ nat1 p 0 ≤ 254 ∧ nat1 p 1 ≤ 6 ∧ (nat1 p 2 < 16 ∨ nat1 p 2 = 255) ∧ nat1 p 3 ≤ 2 ∧ nat1 p 5 ≤ 2 := by
  refine Option.isSome_iff_exists.trans ?_
  simp only [StationEntry.ofImage_eq_some_iff]
  constructor
  · rintro ⟨e, hle, -, hk, hnone, hsome, hr, hq, -⟩
    exact ⟨hle, stationKind_coding.exists_iff.mp ⟨_, hk⟩, exists_zoneOrNone.mp ⟨_, hnone, hsome⟩,
      role_coding.exists_iff.mp ⟨_, hr⟩, policy_coding.exists_iff.mp ⟨_, hq⟩⟩
  · rintro ⟨hle, hk, hz, hr, hq⟩
    obtain ⟨k, hk⟩ := stationKind_coding.exists_iff.mpr hk
    obtain ⟨z, hnone, hsome⟩ := exists_zoneOrNone.mpr hz
    obtain ⟨r, hr⟩ := role_coding.exists_iff.mpr hr
    obtain ⟨q, hq⟩ := policy_coding.exists_iff.mpr hq
    exact ⟨⟨nat1 p 0, k, z, r, clampKindIndex k (nat1 p 4), q⟩, hle, rfl, hk, hnone, hsome, hr, hq, rfl⟩

theorem accepted_zone_iff : imageAccepted .zone p = true ↔ nat1 p 1 ≤ 1 ∧ nat1 p 5 ≤ 1 ∧ nat1 p 6 ≤ 1
    ∧ nat1 p 9 < 16 ∧ nat1 p 10 < 16 ∧ nat1 p 11 < 16 ∧ nat1 p 12 < 16 := by
  refine Option.isSome_iff_exists.trans ?_
  simp only [ZoneEntry.ofImage_eq_some_iff]
  constructor
  · rintro ⟨e, -, hl, -, -, hf, ha, -, -, heq, hc⟩
    rw [heq] at hc
    simp only [List.forall_mem_cons] at hc
    obtain ⟨h0, h1, h2, h3, -⟩ := hc
    exact ⟨takeLimit_coding.exists_iff.mp ⟨_, hl⟩, yesNo_coding.exists_iff.mp ⟨_, hf⟩, yesNo_coding.exists_iff.mp ⟨_, ha⟩,
      h0, h1, h2, h3⟩
  · rintro ⟨hl, hf, ha, h0, h1, h2, h3⟩
    obtain ⟨l, hl⟩ := takeLimit_coding.exists_iff.mpr hl
    obtain ⟨f, hf⟩ := yesNo_coding.exists_iff.mpr hf
    obtain ⟨a, ha⟩ := yesNo_coding.exists_iff.mpr ha
    refine ⟨⟨_, l, _, _, f, a, _, _, _⟩, rfl, hl, rfl, rfl, hf, ha, rfl, rfl, rfl, ?_⟩
    simp only [List.forall_mem_cons]
    exact ⟨h0, h1, h2, h3, nofun⟩

theorem accepted_hatch_iff : imageAccepted .hatch p = true ↔ nat1 p 0 ≤ 254
    ∧ (nat1 p 0 = 0 ∨ (1 ≤ nat1 p 1 ∧ nat1 p 1 ≤ 254)) ∧ (nat1 p 0 = 0 ∨ (1 ≤ nat1 p 2 ∧ nat1 p 2 ≤ 254))
    ∧ nat1 p 3 < 16 ∧ (nat1 p 4 < 16 ∨ nat1 p 4 = 255) ∧ nat1 p 5 ≤ 2 ∧ nat1 p 12 ≤ 1 := by
  refine Option.isSome_iff_exists.trans ?_
  simp only [HatchEntry.ofImage_eq_some_iff]
  constructor
  · rintro ⟨e, hu, hle, ht, hw, hused, hi, hi', hnone, hsome, hm, -, -, -, hb, -⟩
    rw [hu] at hle hused
    rw [ht, hw] at hused
    exact ⟨hle, Classical.or_iff_not_imp_left.mpr fun h => ⟨(hused h).1, (hused h).2.1⟩, Classical.or_iff_not_imp_left.mpr fun h => (hused h).2.2,
      hi ▸ hi', exists_zoneOrNone.mp ⟨_, hnone, hsome⟩, hatchMode_coding.exists_iff.mp ⟨_, hm⟩,
      yesNo_coding.exists_iff.mp ⟨_, hb⟩⟩
  · rintro ⟨hle, ht, hw, hi, ho, hm, hb⟩
    obtain ⟨o, hnone, hsome⟩ := exists_zoneOrNone.mpr ho
    obtain ⟨m, hm⟩ := hatchMode_coding.exists_iff.mpr hm
    obtain ⟨b, hb⟩ := yesNo_coding.exists_iff.mpr hb
    exact ⟨⟨_, _, _, _, o, m, _, _, _, b, _, _, _, _, _⟩, rfl, hle, rfl, rfl,
      fun h => ⟨(ht.resolve_left h).1, (ht.resolve_left h).2, hw.resolve_left h⟩, rfl, hi, hnone, hsome, hm, rfl, rfl, rfl, hb,
      rfl, rfl, rfl, rfl, rfl⟩

theorem accepted_fireInput_iff : imageAccepted .fireInput p = true ↔ nat1 p 0 ≤ 4 := by
  refine Option.isSome_iff_exists.trans ?_
  simp only [inputKind_coding.eq_some_iff]
  exact inputKind_coding.exists_iff

theorem accepted_actuator_iff : imageAccepted .actuator p = true ↔ nat1 p 0 ≤ 5 := by
  refine Option.isSome_iff_exists.trans ?_
  simp only [function_coding.eq_some_iff]
  exact function_coding.exists_iff

/-! ### Images of entries -/

theorem byteOf_nat1 (p : List Byte) (i : Nat) : byteOf (nat1 p i) = byteAt p i := 
  BitVec.eq_of_toNat_eq (byteOf_toNat (byteAt p i).isLt)

theorem enc2_nat2 (p : List Byte) (i : Nat) : enc2 (nat2 p i) = [byteAt p i, byteAt p (i + 1)] := by
  have hhigh : nat2 p i / 256 = nat1 p i := by
    have := (byteAt p (i + 1)).isLt
    unfold nat2 nat1
    omega
  have hlow : byteOf (nat2 p i) = byteAt p (i + 1) := by
    rw [← byteOf_nat1]
    apply BitVec.eq_of_toNat_eq
    simp [byteOf, nat2]
  rw [enc2, hhigh, hlow, byteOf_nat1]

theorem encZone_eq {o : Option Nat} {i : Nat} (hnone : o = none → nat1 p i = 255)
    (hsome : ∀ z, o = some z → nat1 p i = z ∧ z < 16) : encZone o = [byteAt p i] := by
  rw [← byteOf_nat1]
  cases o with
  | none => rw [hnone rfl]; rfl
  | some z => rw [(hsome z rfl).1]; rfl

theorem encBool_eq {b : Bool} {i : Nat} (h : (if b then 1 else 0) = nat1 p i) : encBool b = [byteAt p i] := by
  rw [← byteOf_nat1, ← h]
  cases b <;> rfl

theorem enc1_eq {n i : Nat} (h : n = nat1 p i) : enc1 n = [byteAt p i] := by
  rw [h, enc1, byteOf_nat1]

end

theorem StationEntry.image_ofImage {p : List Byte} {e : StationEntry} (h : StationEntry.ofImage p = some e) :
    e.image = [byteAt p 0, byteAt p 1, byteAt p 2, byteAt p 3, byteOf (if nat1 p 1 = 0 ∨ nat1 p 1 = 5 then
        min 63 (max 0 (nat1 p 4)) else if nat1 p 1 = 1 then min 95 (max 0 (nat1 p 4)) else 0), byteAt p 5] := by
  obtain ⟨-, haddr, hk, hnone, hsome, hr, hq, hi⟩ := StationEntry.ofImage_eq_some_iff.mp h
  rw [StationEntry.image, enc1_eq haddr, enc1_eq hk, encZone_eq hnone hsome, enc1_eq hr, enc1_eq hq, hi, clampKindIndex_eq, hk]
  rfl

theorem ZoneEntry.image_ofImage {p : List Byte} {e : ZoneEntry} (h : ZoneEntry.ofImage p = some e) :
    e.image = [byteOf (clampNat 0 3 (nat1 p 0)), byteAt p 1, byteAt p 2, byteAt p 3, byteOf (clampNat 0 4 (nat1 p 4)),
        byteAt p 5, byteAt p 6, byteOf (clampNat 10 120 (nat1 p 7)), byteOf (clampNat 0 4 (nat1 p 8)), byteAt p 9,
        byteAt p 10, byteAt p 11, byteAt p 12] := by
  obtain ⟨hp, hl, hx, hc, hf, ha, hd, hn, hslots, -⟩ := ZoneEntry.ofImage_eq_some_iff.mp h
  rw [ZoneEntry.image, hp, enc1_eq hl, hx, enc2_nat2, hc, encBool_eq hf, encBool_eq ha, hd, hn, hslots, ← byteOf_nat1 p 9,
    ← byteOf_nat1 p 10, ← byteOf_nat1 p 11, ← byteOf_nat1 p 12]
  rfl

theorem HatchEntry.image_ofImage {p : List Byte} {e : HatchEntry} (h : HatchEntry.ofImage p = some e) :
    e.image = [byteAt p 0, byteAt p 1, byteAt p 2, byteAt p 3, byteAt p 4, byteAt p 5]
      ++ enc2 (clampNat 10 600 (nat2 p 6)) ++ enc2 (clampNat 5 120 (nat2 p 8)) ++ enc2 (clampNat 30 1800 (nat2 p 10))
      ++ [byteAt p 12] ++ enc2 (clampNat 5 300 (nat2 p 13)) ++ enc2 (clampNat 60 3600 (nat2 p 15))
      ++ [byteOf (clampNat 1 30 (nat1 p 17))] ++ enc2 (clampNat 0 10080 (nat2 p 18)) ++ [byteOf (clampNat 0 100 (nat1 p 20))] := by
  obtain ⟨hu, -, ht, hw, -, hi, -, hnone, hsome, hm, h6, h8, h10, hb, h13, h15, h17, h18, h20⟩ :=
    HatchEntry.ofImage_eq_some_iff.mp h
  rw [HatchEntry.image, enc1_eq hu, enc1_eq ht, enc1_eq hw, enc1_eq hi, encZone_eq hnone hsome, enc1_eq hm, encBool_eq hb, h6,
    h8, h10, h13, h15, h17, h18, h20]
  rfl

/-! ### What is stored -/

namespace State

section
variable {s : State} {i : Nat} {p : List Byte}

theorem storeEntry_station {e : StationEntry} (h : StationEntry.ofImage p = some e) :
    s.storeEntry .station i p = s.storeStation i e := by
  unfold storeEntry
  dsimp only
  rw [h]

theorem storeEntry_zone {e : ZoneEntry} (h : ZoneEntry.ofImage p = some e) :
    s.storeEntry .zone i p = (s.setZone i e).testExposed i := by
  unfold storeEntry
  dsimp only
  rw [h]

theorem storeEntry_fireInput {k : InputKind} (h : InputKind.ofCode (nat1 p 0) = some k) :
    s.storeEntry .fireInput i p = s.setInputKind i k := by
  unfold storeEntry
  dsimp only
  rw [h]

theorem storeEntry_actuator {f : Function} (h : Function.ofCode (nat1 p 0) = some f) :
    s.storeEntry .actuator i p = s.setActuator i f := by
  unfold storeEntry
  dsimp only
  rw [h]

theorem storeEntry_hatch {e : HatchEntry} (h : HatchEntry.ofImage p = some e) :
    s.storeEntry .hatch i p = s.setHatch i e := by
  unfold storeEntry
  dsimp only
  rw [h]

theorem storeEntry_refused {t : TableId} (h : imageAccepted t p = false) : s.storeEntry t i p = s := by
  have hnone {α : Type} {o : Option α} (ho : o.isSome = false) : o = none := Option.not_isSome_iff_eq_none.mp (by rw [ho]; nofun)
  cases t with
  | station => unfold storeEntry; dsimp only; rw [hnone (o := StationEntry.ofImage p) h]
  | zone => unfold storeEntry; dsimp only; rw [hnone (o := ZoneEntry.ofImage p) h]
  | fireInput => unfold storeEntry; dsimp only; rw [hnone (o := InputKind.ofCode (nat1 p 0)) h]
  | actuator => unfold storeEntry; dsimp only; rw [hnone (o := Function.ofCode (nat1 p 0)) h]
  | hatch => unfold storeEntry; dsimp only; rw [hnone (o := HatchEntry.ofImage p) h]
  | profile | probe | cls => cases h

theorem profile_ofImage (p : List Byte) : Profile.ofImage p = ⟨min 1000 (max 0 (nat2 p 0)), min 1000 (max 0 (nat2 p 2)),
    min 1000 (max 0 (nat2 p 4)), min 1000 (max 0 (nat2 p 6)), min 100 (max 0 (nat1 p 8)), min 50 (max 0 (nat1 p 9)),
    min 850 (max (-400) (signed2 p 10)), min 850 (max (-400) (signed2 p 12)), min 50 (max 0 (nat1 p 14)),
    min 15 (max 1 (nat1 p 15))⟩ := by
  simp only [Profile.ofImage, clampT_eq, clampRh]
  rw [clampNat_eq_min_max (by decide), clampNat_eq_min_max (by decide), clampNat_eq_min_max (by decide),
    clampNat_eq_min_max (by decide), clampNat_eq_min_max (by decide), clampNat_eq_min_max (by decide),
    clampNat_eq_min_max (by decide), clampNat_eq_min_max (by decide)]

theorem probeCal_ofImage (p : List Byte) : ProbeCal.ofImage p
    = ⟨min 63 (max (-64) (signed1 p 0)), min 31 (max (-32) (signed1 p 1))⟩ := by
  rw [ProbeCal.ofImage, clampInt_eq_min_max (by decide), clampInt_eq_min_max (by decide)]

theorem classEntry_ofImage (p : List Byte) : ClassEntry.ofImage p
    = ⟨min 1023 (max 0 (nat2 p 0)), min 63 (max 0 (nat1 p 2)), min 63 (max 0 (nat1 p 3)), nat2 p 4⟩ := by
  rw [ClassEntry.ofImage, clampNat_eq_min_max (by decide), clampNat_eq_min_max (by decide), clampNat_eq_min_max (by decide)]

/-- The state in which a station entry is put in its place, its segment read before (R10). -/
theorem stationCleared_eq (s : State) (i : Nat) :
    let b := (if (s.stationRuntime i).silent then s.lower .stationSilent (s.station i).addr else s).setStationRuntime i
      ⟨0, false, none⟩
    s.stationCleared i = match s.fsp.segment with
      | .awaiting j addr old => { b with fsp := { b.fsp with segment := .awaiting j addr (old || decide (j = i)) } }
      | _ => b := by
  intro b
  have hb : b.fsp = s.fsp := by
    have hlower : (if (s.stationRuntime i).silent then s.lower .stationSilent (s.station i).addr else s).fsp = s.fsp := by
      split
      · exact (lower_reported s _ _).fsp
      · rfl
    exact hlower
  show b.windowMarked i = _
  unfold windowMarked
  rw [hb] <;> cases s.fsp.segment <;> rfl

/-! ### What is read back -/

theorem entryImage_storeStation (e : StationEntry) : (s.storeStation i e).entryImage .station i = e.image :=
  congrArg StationEntry.image (station_storeStation s i e).1

theorem entryImage_storeZone (e : ZoneEntry) : ((s.setZone i e).testExposed i).entryImage .zone i = e.image := by
  refine congrArg ZoneEntry.image ?_
  rw [(testExposed_climateReported (s.setZone i e) i).zone, zone_setZone, if_pos rfl]

end
end State
end Sys2Proof.Machine

namespace Sys2Proof.Proofs
open Sys2Proof.Machine Sys2Proof.Machine.State

/-- Settles O53: what each table stores, the images, which images are accepted, and what is read back after storing. -/
theorem storedEntriesFollowTheirTables : Obligations.StoredEntriesFollowTheirTables := by
  unfold Obligations.StoredEntriesFollowTheirTables
  intro clamp temp
  have hclamp {lo hi : Nat} (h : lo ≤ hi) (n : Nat) : clampNat lo hi n = clamp lo hi n := clampNat_eq_min_max h n
  refine ⟨fun s i p => ?stores, fun s i => ?images, fun s i p => ?back, fun p => ?accepts, rfl, rfl, rfl, rfl, rfl, rfl, rfl⟩
  case stores =>
    refine ⟨fun e he => ?_, congrArg (s.setProfile i) (profile_ofImage p), fun e => storeEntry_zone,
      congrArg (s.setProbeCal i) (probeCal_ofImage p), fun k => storeEntry_fireInput, fun f => storeEntry_actuator,
      fun e => storeEntry_hatch, congrArg (s.setClassEntry i) (classEntry_ofImage p), fun t => storeEntry_refused⟩
    intro a b c
    have hc : s.stationCleared i = c := stationCleared_eq s i
    rw [storeEntry_station he, storeStation_eq, hc]
  case images =>
    intro zone yes
    refine ⟨?_, rfl, rfl, rfl, rfl, rfl, ?_, rfl⟩
    · intro e
      show e.image = _
      rw [StationEntry.image]
      cases e.zone <;> rfl
    · intro e
      show e.image = _
      rw [HatchEntry.image]
      cases e.outer <;> rfl
  case back =>
    intro back slots
    refine ⟨fun h => ?station, ?profile, fun h => ?zone, ?probe, fun h => ?input, fun h => ?actuator, fun h => ?hatch, ?cls⟩
    case station =>
      obtain ⟨e, he⟩ := Option.isSome_iff_exists.mp h
      show (s.storeEntry .station i p).entryImage .station i = _
      rw [storeEntry_station he, entryImage_storeStation]
      exact StationEntry.image_ofImage he
    case profile =>
      show ((s.setProfile i (Profile.ofImage p)).profile i).image = _
      rw [profile_setProfile, if_pos rfl, profile_ofImage]
      rfl
    case zone =>
      obtain ⟨e, he⟩ := Option.isSome_iff_exists.mp h
      show (s.storeEntry .zone i p).entryImage .zone i = _
      rw [storeEntry_zone he, entryImage_storeZone, ZoneEntry.image_ofImage he, hclamp (by decide), hclamp (by decide),
        hclamp (by decide), hclamp (by decide)]
      rfl
    case probe =>
      show ((s.setProbeCal i (ProbeCal.ofImage p)).probeCal i).image = _
      rw [probeCal_setProbeCal, if_pos rfl, probeCal_ofImage]
      rfl
    case input =>
      obtain ⟨k, hk⟩ := Option.isSome_iff_exists.mp h
      show enc1 ((s.storeEntry .fireInput i p).inputKind i).code = _
      rw [storeEntry_fireInput hk, inputKind_setInputKind, if_pos rfl]
      exact enc1_eq (inputKind_coding.eq_some_iff.mp hk)
    case actuator =>
      obtain ⟨f, hf⟩ := Option.isSome_iff_exists.mp h
      show enc1 ((s.storeEntry .actuator i p).actuator i).code = _
      rw [storeEntry_actuator hf, actuator_setActuator, if_pos rfl]
      exact enc1_eq (function_coding.eq_some_iff.mp hf)
    case hatch =>
      obtain ⟨e, he⟩ := Option.isSome_iff_exists.mp h
      show ((s.storeEntry .hatch i p).hatch i).image = _
      rw [storeEntry_hatch he, hatch_setHatch, if_pos rfl, HatchEntry.image_ofImage he]
      simp only [hclamp, Nat.reduceLeDiff]
    case cls =>
      show ((s.setClassEntry i (ClassEntry.ofImage p)).classEntry i).image = _
      rw [classEntry_setClassEntry, if_pos rfl, classEntry_ofImage, ClassEntry.image, enc2_nat2]
      rfl
  case accepts =>
    refine ⟨fun e => ?stationEntry, fun e => ?zoneEntry, fun e => ?hatchEntry, fun k => inputKind_coding.eq_some_iff,
      fun f => function_coding.eq_some_iff, Option.isSome_iff_exists, Option.isSome_iff_exists, Option.isSome_iff_exists,
      Option.isSome_iff_exists, Option.isSome_iff_exists, rfl, rfl, rfl, ?_⟩
    case stationEntry =>
      have hindex : clampKindIndex e.kind (nat1 p 4) = (match e.kind with
          | .probe | .actuator => clamp 0 63 (nat1 p 4)
          | .fireInput => clamp 0 95 (nat1 p 4)
          | _ => 0) := by
        rw [clampKindIndex_eq]
        cases e.kind <;> rfl
      rw [StationEntry.ofImage_eq_some_iff, hindex] <;> rfl
    case zoneEntry =>
      rw [ZoneEntry.ofImage_eq_some_iff, hclamp (by decide), hclamp (by decide), hclamp (by decide), hclamp (by decide)]
    case hatchEntry =>
      rw [HatchEntry.ofImage_eq_some_iff]
      simp only [hclamp, Nat.reduceLeDiff]
    · exact ⟨accepted_station_iff, accepted_zone_iff, accepted_fireInput_iff, accepted_actuator_iff, accepted_hatch_iff⟩

end Sys2Proof.Proofs
end

section
/-! The consistency tests of ACTIVATE, in the order of the tables (R21, R52, R77, R121, R177). -/
namespace Sys2Proof.Machine

namespace State

/-! ### The first entry that fails -/

section
variable {α : Type} {ok : List (Nat × α) → α → Bool}

theorem firstFailing_append (front : List (Nat × α)) {lower : List (Nat × α)} {i : Nat} {e : α} (rest : List (Nat × α))
    (hfront : ∀ pre q post, front = pre ++ q :: post → ok (lower ++ pre) q.2 = true) (hbad : ok (lower ++ front) e = false) :
    firstFailing ok lower (front ++ (i, e) :: rest) = some i := by
  induction front generalizing lower with
  | nil =>
    rw [List.append_nil] at hbad
    exact if_neg (Bool.eq_false_iff.mp hbad)
  | cons q front ih =>
    have hq : ok lower q.2 = true := by
      have := hfront [] q front rfl
      rwa [List.append_nil] at this
    refine (if_pos hq).trans (ih (lower := lower ++ [q]) (fun pre x post heq => ?_) ?_)
    · rw [List.append_assoc]
      exact hfront (q :: pre) x post (congrArg (q :: ·) heq)
    · rwa [List.append_assoc]

theorem firstFailing_passes (l : List (Nat × α)) {lower : List (Nat × α)}
    (h : ∀ pre q post, l = pre ++ q :: post → ok (lower ++ pre) q.2 = true) : firstFailing ok lower l = none := by
  induction l generalizing lower with
  | nil => rfl
  | cons q l ih =>
    have hq : ok lower q.2 = true := by
      have := h [] q l rfl
      rwa [List.append_nil] at this
    refine (if_pos hq).trans (ih (lower := lower ++ [q]) fun pre x post heq => ?_)
    rw [List.append_assoc]
    exact h (q :: pre) x post (congrArg (q :: ·) heq)

/-- The entry that fails while all before it pass. -/
theorem firstFailing_at {l front rest : List (Nat × α)} {i : Nat} {e : α} (hl : l = front ++ (i, e) :: rest)
    (hbad : ¬ ok front e = true)
    (hbefore : ∀ pre j f post, l = pre ++ (j, f) :: post → pre.length < front.length → ok pre f = true) :
    firstFailing ok [] l = some i := by
  subst hl
  refine firstFailing_append front rest (fun pre q post heq => ?_) (Bool.eq_false_iff.mpr hbad)
  refine hbefore pre q.1 q.2 (post ++ (i, e) :: rest) ?_ ?_
  · rw [heq, List.append_assoc]
    rfl
  · rw [heq, List.length_append, List.length_cons]
    omega

theorem firstFailing_none {l : List (Nat × α)} (h : ∀ pre j f post, l = pre ++ (j, f) :: post → ok pre f = true) :
    firstFailing ok [] l = none :=
  firstFailing_passes l fun pre q post heq => h pre q.1 q.2 post heq

end
end State

/-! ### The tests -/

theorem StationKind.indexed_iff (k : StationKind) : k.indexed = true ↔ k = .probe ∨ k = .fireInput ∨ k = .actuator := by
  cases k <;> simp [StationKind.indexed]

theorem distinct_iff (l : List Nat) : distinct l = true ↔ l.Nodup := by
  induction l with
  | nil => exact ⟨fun _ => List.nodup_nil, fun _ => rfl⟩
  | cons z l ih => rw [distinct, Bool.and_eq_true, decide_eq_true_eq, ih, List.nodup_cons]

theorem Profile.consistent_iff (p : Profile) : p.consistent = true
    ↔ p.critLow < p.low ∧ p.low < p.high ∧ p.high < p.critHigh ∧ 2 * p.margin ≤ p.high - p.low ∧ p.tLow < p.tHigh := by
  simp only [Profile.consistent, Bool.and_eq_true, decide_eq_true_eq, and_assoc]

theorem ZoneEntry.consistent_iff (e : ZoneEntry) (z : Nat) :
    e.consistent z = true ↔ z ∉ e.coupled.take e.coupledCount ∧ (e.coupled.take e.coupledCount).Nodup := by
  rw [ZoneEntry.consistent, Bool.and_eq_true, decide_eq_true_iff, distinct_iff]
  rfl

namespace State

theorem stationConsistent_iff (s : State) (lower : List (Nat × StationEntry)) (e : StationEntry) :
    s.stationConsistent lower e = true
      ↔ e.addr ≠ s.mga.live.ownAddress ∧ e.addr ≠ s.mga.live.siteAddress ∧ (∀ q ∈ lower, q.2.addr ≠ e.addr)
        ∧ (e.kind = .probe ∨ e.kind = .fireInput ∨ e.kind = .actuator →
            e.zone ≠ none ∧ ∀ q ∈ lower, ¬ (q.2.kind = e.kind ∧ q.2.index = e.index))
        ∧ (e.kind = .actuator → s.actuator e.index ≠ .unassigned)
        ∧ (e.kind = .reader → (e.role = .door ∧ e.zone ≠ none) ∨ e.role = .witness) := by
  have hindexed : (!e.kind.indexed) = true ↔ ¬ (e.kind = .probe ∨ e.kind = .fireInput ∨ e.kind = .actuator) := by
    rw [← StationKind.indexed_iff, Bool.not_eq_true', Bool.not_eq_true]
  simp only [stationConsistent, Bool.and_eq_true, Bool.or_eq_true, decide_eq_true_eq, hindexed, List.all_eq_true,
    Option.isSome_iff_ne_none, and_assoc]
  refine and_congr_right fun _ => and_congr_right fun _ => and_congr_right fun _ => ?_
  constructor
  · rintro ⟨hzone, hindex, hfun, hrole⟩
    refine ⟨fun hk => ⟨hzone.resolve_left (Classical.not_not.mpr hk), fun q hq hsame => ?_⟩, fun hk => hfun.resolve_left (Classical.not_not.mpr hk),
      fun hk => hrole.imp_left fun h => h.resolve_left (Classical.not_not.mpr hk)⟩
    exact (hindex.resolve_left (Classical.not_not.mpr hk) q hq).elim (· hsame.1) (· hsame.2)
  · rintro ⟨hindexed, hfun, hrole⟩
    refine ⟨Classical.or_iff_not_imp_left.mpr fun hk => (hindexed (Classical.not_not.mp hk)).1,
      Classical.or_iff_not_imp_left.mpr fun hk q hq => Classical.not_and_iff_not_or_not.mp ((hindexed (Classical.not_not.mp hk)).2 q hq),
      Classical.or_iff_not_imp_left.mpr fun hk => hfun (Classical.not_not.mp hk), ?_⟩
    by_cases hk : e.kind = .reader
    · exact (hrole hk).imp_left Or.inr
    · exact .inl (.inl hk)

theorem hasStation_iff (s : State) (a : Nat) (f : StationEntry → Bool) :
    s.hasStation a f = true ↔ ∃ p ∈ s.stationList, p.2.addr = a ∧ f p.2 = true := by
  simp only [hasStation, List.any_eq_true, Bool.and_eq_true, decide_eq_true_eq]

theorem hatchConsistent_iff (s : State) (lower : List (Nat × HatchEntry)) (e : HatchEntry) :
    s.hatchConsistent lower e = true
      ↔ (∃ p ∈ s.stationList, p.2.addr = e.unit ∧ p.2.kind = .hatchUnit)
        ∧ (∃ p ∈ s.stationList, p.2.addr = e.terminal ∧ p.2.kind = .courierTerminal)
        ∧ (∃ p ∈ s.stationList, p.2.addr = e.witness ∧ p.2.kind = .reader ∧ p.2.role = .witness)
        ∧ (∀ q ∈ lower, (∀ a ∈ hatchAddresses e, a ∉ hatchAddresses q.2) ∧ q.2.inner ≠ e.inner)
        ∧ e.outer ≠ some e.inner := by
  simp only [hatchConsistent, hasStation_iff, Bool.and_eq_true, decide_eq_true_eq, List.all_eq_true, and_assoc,
    forall_and]

/-! ### The first failure of all tests -/

section
variable {s : State}

theorem inconsistency_station {i : Nat} (h : firstFailing s.stationConsistent [] s.stationList = some i) :
    s.inconsistency = some (.station, i) := by
  unfold inconsistency
  rw [h]

variable (hstations : firstFailing s.stationConsistent [] s.stationList = none)
include hstations

theorem inconsistency_profile {i : Nat} (h : i < 4) (hbad : ¬ (s.profile i).consistent = true)
    (hbefore : ∀ j, j < i → (s.profile j).consistent = true) : s.inconsistency = some (.profile, i) := by
  have hfind : (List.range 4).find? (fun i => !(s.profile i).consistent) = some i :=
    List.find?_range_eq_some.mpr ⟨by rw [Bool.eq_false_iff.mpr hbad]; rfl, List.mem_range.mpr h,
      fun j hj => by rw [hbefore j hj]; rfl⟩
  unfold inconsistency
  rw [hstations]
  dsimp only
  rw [hfind]

variable (hprofiles : ∀ i, i < 4 → (s.profile i).consistent = true)
include hprofiles

theorem inconsistency_beyondProfiles : s.inconsistency
    = match (List.range 16).find? (fun z => !(s.zone z).consistent z) with
      | some z => some (.zone, z)
      | none =>
        match firstFailing s.hatchConsistent [] s.hatchesInUse with
        | some h => some (.hatch, h)
        | none => (s.hoc.consignments.find? (fun c => decide ((s.hatch c.hatch).unit = 0))).map
            (fun c => (.hatch, c.hatch)) := by
  have hfind : (List.range 4).find? (fun i => !(s.profile i).consistent) = none :=
    List.find?_range_eq_none.mpr fun i hi => by rw [hprofiles i hi]; rfl
  unfold inconsistency
  rw [hstations]
  dsimp only
  rw [hfind]
  dsimp only
  rw [show zoneNumbers = List.range 16 from rfl]
  cases (List.range 16).find? (fun z => !(s.zone z).consistent z) with
  | some z => rfl
  | none =>
    dsimp only
    cases firstFailing s.hatchConsistent [] s.hatchesInUse with
    | some h => rfl
    | none =>
      dsimp only
      cases s.hoc.consignments.find? (fun c => decide ((s.hatch c.hatch).unit = 0)) <;> rfl

theorem inconsistency_zone {z : Nat} (h : z < 16) (hbad : ¬ (s.zone z).consistent z = true)
    (hbefore : ∀ y, y < z → (s.zone y).consistent y = true) : s.inconsistency = some (.zone, z) := by
  have hfind : (List.range 16).find? (fun z => !(s.zone z).consistent z) = some z :=
    List.find?_range_eq_some.mpr ⟨by rw [Bool.eq_false_iff.mpr hbad]; rfl, List.mem_range.mpr h,
      fun j hj => by rw [hbefore j hj]; rfl⟩
  rw [inconsistency_beyondProfiles hstations hprofiles, hfind]

variable (hzones : ∀ z, z < 16 → (s.zone z).consistent z = true)
include hzones

theorem inconsistency_beyondZones : s.inconsistency
    = match firstFailing s.hatchConsistent [] s.hatchesInUse with
      | some h => some (.hatch, h)
      | none => (s.hoc.consignments.find? (fun c => decide ((s.hatch c.hatch).unit = 0))).map
          (fun c => (.hatch, c.hatch)) := by
  have hfind : (List.range 16).find? (fun z => !(s.zone z).consistent z) = none :=
    List.find?_range_eq_none.mpr fun z hz => by rw [hzones z hz]; rfl
  rw [inconsistency_beyondProfiles hstations hprofiles, hfind]

theorem inconsistency_hatch {h : Nat} (hfirst : firstFailing s.hatchConsistent [] s.hatchesInUse = some h) :
    s.inconsistency = some (.hatch, h) := by
  rw [inconsistency_beyondZones hstations hprofiles hzones, hfirst]

variable (hhatches : firstFailing s.hatchConsistent [] s.hatchesInUse = none)
include hhatches

theorem inconsistency_consignment {c : Consignment} {front back : List Consignment}
    (hlist : s.hoc.consignments = front ++ c :: back) (hbad : (s.hatch c.hatch).unit = 0)
    (hfront : ∀ x ∈ front, (s.hatch x.hatch).unit ≠ 0) : s.inconsistency = some (.hatch, c.hatch) := by
  have hfind : s.hoc.consignments.find? (fun c => decide ((s.hatch c.hatch).unit = 0)) = some c :=
    List.find?_eq_some_iff_append.mpr ⟨decide_eq_true hbad, front, back, hlist,
      fun x hx => by rw [decide_eq_false (hfront x hx)]; rfl⟩
  rw [inconsistency_beyondZones hstations hprofiles hzones, hhatches, hfind]
  rfl

theorem inconsistency_none (hall : ∀ c ∈ s.hoc.consignments, (s.hatch c.hatch).unit ≠ 0) : s.inconsistency = none := by
  have hfind : s.hoc.consignments.find? (fun c => decide ((s.hatch c.hatch).unit = 0)) = none :=
    List.find?_eq_none.mpr fun c hc => by rw [decide_eq_false (hall c hc)]; nofun
  rw [inconsistency_beyondZones hstations hprofiles hzones, hhatches, hfind]
  rfl

end
end State
end Sys2Proof.Machine
end

section
/-! The activation check: its sum, and the bytes it runs over (R175, R176). -/
namespace Sys2Proof.Machine

/-! ### The sum -/

theorem checkStep_fst_lt (bytes : List Byte) {ab : Nat × Nat} (h : ab.1 < 255) : (bytes.foldl checkStep ab).1 < 255 := by
  induction bytes generalizing ab with
  | nil => exact h
  | cons x bytes ih => exact ih (Nat.mod_lt _ (by decide))

theorem activationSum_append (bytes : List Byte) (x : Byte) :
    let a := (activationSum bytes % 256 + x.toNat) % 255
    activationSum (bytes ++ [x]) = (activationSum bytes / 256 + a) % 255 * 256 + a := by
  have hlt : (bytes.foldl checkStep (0, 0)).1 < 255 := checkStep_fst_lt bytes (by decide)
  unfold activationSum
  rw [List.foldl_append]
  generalize bytes.foldl checkStep (0, 0) = ab at hlt
  obtain ⟨a, b⟩ := ab
  have hmod : (b * 256 + a) % 256 = a := by omega
  have hdiv : (b * 256 + a) / 256 = b := by omega
  show _ = ((b * 256 + a) / 256 + ((b * 256 + a) % 256 + x.toNat) % 255) % 255 * 256
    + ((b * 256 + a) % 256 + x.toNat) % 255
  rw [hmod, hdiv]
  rfl

namespace State

/-! ### The bytes of the tables -/

theorem length_entryImage (s : State) (t : TableId) (i : Nat) : (s.entryImage t i).length = t.imageSize := by
  have hzone (o : Option Nat) : (encZone o).length = 1 := by cases o <;> rfl
  cases t with
  | station =>
    show (s.station i).image.length = 6
    rw [StationEntry.image]
    simp only [List.length_append, hzone]
    rfl
  | hatch =>
    show (s.hatch i).image.length = 21
    rw [HatchEntry.image]
    simp only [List.length_append, hzone]
    rfl
  | profile | zone | probe | fireInput | actuator | cls => rfl

theorem length_tableImage (s : State) (t : TableId) (n : Nat) :
    ((List.range n).flatMap (fun i => s.entryImage t i)).length = n * t.imageSize := by
  induction n with
  | zero => exact (Nat.zero_mul _).symm
  | succ n ih =>
    rw [List.range_succ, List.flatMap_append, List.length_append, ih, List.flatMap_singleton, length_entryImage,
      Nat.succ_mul]

theorem tableBytes_eq (s : State) :
    let table (t : TableId) (n : Nat) : List Byte := (List.range n).flatMap (fun i => s.entryImage t i)
    s.tableBytes = table .station 192 ++ table .profile 4 ++ table .zone 16 ++ table .probe 64 ++ table .fireInput 96
      ++ table .actuator 64 ++ table .hatch 4 ++ table .cls 8 := by
  intro table
  have htable (t : TableId) : (List.range t.size).flatMap (fun i => s.entryImage t i) = table t t.size := rfl
  unfold tableBytes
  simp only [htable, TableId.all, List.flatMap_cons, List.flatMap_nil, List.append_nil, List.append_assoc]
  rfl

theorem length_tableBytes (s : State) : s.tableBytes.length = 1844 := by
  rw [tableBytes_eq]
  simp only [List.length_append, length_tableImage]
  rfl

end State
end Sys2Proof.Machine
end

section
/-! An accepted ACTIVATE: what the owners prepare, in either order (R177). -/
namespace Sys2Proof.Machine

/-! ### The two owners that raise alerts -/

/-- The sources present after both owners have prepared, from those before. -/
def PresentAfterOwners (s : State) (j x : Nat) : Prop :=
  (IsPresent s j x ∧ j ≠ AlertKind.probeFault.code ∧ j ≠ AlertKind.detectorFault.code)
    ∨ (j = AlertKind.zoneNoData.code ∧ s.probesOf x ≠ [])
    ∨ (j = AlertKind.zoneExposed.code ∧ (s.climate x).exposed = false ∧ ExposureDue s x)
    ∨ (j = AlertKind.zoneUnmonitored.code ∧ ∃ p ∈ s.stationList, p.2.zone = some x)

/-- Two kinds raised before one is lowered, another raised after. -/
theorem raised_then_lowered {P a d N X U : Prop} (hN : N → d) (hX : X → d) :
    ((((P ∧ a) ∨ N ∨ X) ∧ d) ∨ U) ↔ (P ∧ a ∧ d) ∨ N ∨ X ∨ U := by
  grind

/-- One kind raised before another is lowered, two raised after. -/
theorem lowered_then_raised {P a d N X U : Prop} (hU : U → a) :
    ((((P ∧ d) ∨ U) ∧ a) ∨ N ∨ X) ↔ (P ∧ a ∧ d) ∨ N ∨ X ∨ U := by
  grind

/-- What the Climate and the Fire Supervisor do at an accepted ACTIVATE, in whichever order. -/
structure OwnersPrepared (s t : State) : Prop where
  outside : KeptOutside s t
  cgt : t.cgt = s.cgt
  hoc : t.hoc = s.hoc
  step : t.tmb.step = s.tmb.step
  dwell : t.tmb.dwell = s.tmb.dwell
  probes : t.cls.probes = s.cls.probes
  profiles : t.cls.profiles = s.cls.profiles
  zones : t.cls.zones = s.cls.zones
  probeState : ∀ i, t.probeState i = .noSample
  climate : ∀ z, z < 16 → ∃ e, t.climate z = ⟨.noData, none, 0, 0, (s.climate z).exposure, e, false, false⟩
    ∧ (e = true ↔ (s.climate z).exposed = true ∨ ExposureDue s z)
  inputs : t.frs.inputs = s.frs.inputs
  inputStage : ∀ i, t.inputStage i = .noReport
  fire : ∀ z, z < 16 → t.fire z = ⟨.quiet, none, [], false, true⟩ ∧ t.releaseTimer z = (s.releaseTimer z).stop
  handed : t.handed = s.handed ++ (List.range 16).map (fun z => Instr.zoneReport z (.unmonitoredChanged true))
  present : ∀ j x, x < 16 ∨ (j ≠ AlertKind.zoneNoData.code ∧ j ≠ AlertKind.zoneExposed.code
    ∧ j ≠ AlertKind.zoneUnmonitored.code) → (IsPresent t j x ↔ PresentAfterOwners s j x)

theorem climateThenFire_prepared (s : State) : OwnersPrepared s s.activateClimate.activateFire := by
  obtain ⟨honly, hprobes, hclimate, hpresent⟩ := activateClimate_spec s
  generalize s.activateClimate = t at honly hprobes hclimate hpresent ⊢
  obtain ⟨gonly, gstage, gfire, ghanded, gpresent⟩ := activateFire_spec t
  have hlist : t.stationList = s.stationList := by rw [State.stationList, honly.cgt]; rfl
  have htimer (z : Nat) : t.releaseTimer z = s.releaseTimer z := by rw [State.releaseTimer, honly.release]; rfl
  refine ⟨honly.outside.trans gonly.outside, gonly.cgt.trans honly.cgt, gonly.hoc.trans honly.hoc,
    gonly.step.trans honly.step, gonly.dwell.trans honly.dwell, (congrArg Cls.probes gonly.cls).trans honly.probes,
    (congrArg Cls.profiles gonly.cls).trans honly.profiles, (congrArg Cls.zones gonly.cls).trans honly.zones,
    fun i => ?_, fun z hz => ?_, gonly.inputs.trans (congrArg Frs.inputs honly.frs), gstage, fun z hz => ?_, ?_,
    fun j x hx => ?_⟩
  · rw [State.probeState, gonly.cls]
    exact hprobes i
  · rw [State.climate, gonly.cls]
    exact hclimate z hz
  · rw [← htimer]
    exact gfire z hz
  · rw [ghanded, honly.handed]
  · rw [gpresent j x (hx.imp_right fun h => h.2.2), hpresent j x (hx.imp_right fun h => ⟨h.1, h.2.1⟩), hlist]
    exact raised_then_lowered (fun h => h.1 ▸ by decide) (fun h => h.1 ▸ by decide)

theorem fireThenClimate_prepared (s : State) : OwnersPrepared s s.activateFire.activateClimate := by
  obtain ⟨gonly, gstage, gfire, ghanded, gpresent⟩ := activateFire_spec s
  generalize s.activateFire = t at gonly gstage gfire ghanded gpresent ⊢
  obtain ⟨honly, hprobes, hclimate, hpresent⟩ := activateClimate_spec t
  have hrec (z : Nat) : t.climate z = s.climate z := by rw [State.climate, gonly.cls]; rfl
  have hzone (z : Nat) : t.zone z = s.zone z := by rw [State.zone, gonly.cls]; rfl
  have hdue (z : Nat) : ExposureDue t z ↔ ExposureDue s z := by rw [ExposureDue, hrec, hzone]
  refine ⟨gonly.outside.trans honly.outside, honly.cgt.trans gonly.cgt, honly.hoc.trans gonly.hoc,
    honly.step.trans gonly.step, honly.dwell.trans gonly.dwell, honly.probes.trans (congrArg Cls.probes gonly.cls),
    honly.profiles.trans (congrArg Cls.profiles gonly.cls), honly.zones.trans (congrArg Cls.zones gonly.cls), hprobes,
    fun z hz => ?_, (congrArg Frs.inputs honly.frs).trans gonly.inputs, fun i => ?_, fun z hz => ?_,
    honly.handed.trans ghanded, fun j x hx => ?_⟩
  · obtain ⟨e, he, hiff⟩ := hclimate z hz
    rw [hrec] at he hiff
    exact ⟨e, he, hiff.trans (or_congr_right (hdue z))⟩
  · rw [State.inputStage, honly.frs]
    exact gstage i
  · obtain ⟨hfire, htimer⟩ := gfire z hz
    refine ⟨?_, ?_⟩
    · rw [State.fire, honly.frs]
      exact hfire
    · rw [State.releaseTimer, honly.release]
      exact htimer
  · rw [hpresent j x (hx.imp_right fun h => ⟨h.1, h.2.1⟩), gpresent j x (hx.imp_right fun h => h.2.2), hrec, hdue,
      probesOf_of_cgt gonly.cgt]
    exact lowered_then_raised (fun h => h.1 ▸ by decide)

theorem owners_prepared (s : State) (order : OwnerOrder) :
    ∃ r, OwnersPrepared s.restartStations r ∧ s.activateOwners order = r.restartHatches := by
  cases order with
  | climateFirst => exact ⟨_, climateThenFire_prepared s.restartStations, rfl⟩
  | climateLast => exact ⟨_, fireThenClimate_prepared s.restartStations, rfl⟩

/-! ### All owners -/

/-- What all owners do at an accepted ACTIVATE. -/
structure PartPrepared (s v : State) : Prop where
  outside : KeptOutside s v
  stations : v.cgt.stations = s.cgt.stations
  actuators : v.cgt.actuators = s.cgt.actuators
  stationRuntime : ∀ i, v.stationRuntime i = ⟨0, false, none⟩
  probes : v.cls.probes = s.cls.probes
  profiles : v.cls.profiles = s.cls.profiles
  zones : v.cls.zones = s.cls.zones
  probeState : ∀ i, v.probeState i = .noSample
  climate : ∀ z, z < 16 → ∃ e, v.climate z = ⟨.noData, none, 0, 0, (s.climate z).exposure, e, false, false⟩
    ∧ (e = true ↔ (s.climate z).exposed = true ∨ ExposureDue s z)
  inputs : v.frs.inputs = s.frs.inputs
  inputStage : ∀ i, v.inputStage i = .noReport
  fire : ∀ z, z < 16 → v.fire z = ⟨.quiet, none, [], false, true⟩ ∧ v.releaseTimer z = (s.releaseTimer z).stop
  hatches : v.hoc.hatches = s.hoc.hatches
  consignments : v.hoc.consignments = s.hoc.consignments
  hatchRuntime : ∀ h, v.hatchRuntime h = ⟨.noReport, false, false, false, false, none, false⟩
  hatchTimers : ∀ h, h < 4 → v.stepTimer h = (s.stepTimer h).stop ∧ v.dwellTimer h = (s.dwellTimer h).stop
  handed : v.handed = s.handed ++ (List.range 16).map (fun z => Instr.zoneReport z (.unmonitoredChanged true))
  present : ∀ j x, j ≠ AlertKind.stationSilent.code → (x < 16 ∨ (j ≠ AlertKind.zoneNoData.code
    ∧ j ≠ AlertKind.zoneExposed.code ∧ j ≠ AlertKind.zoneUnmonitored.code)) → (IsPresent v j x ↔ PresentAfterOwners s j x)
  stationSilent : Tab.wf .fresh s.cgt.runtime = true → ∀ x, IsPresent v AlertKind.stationSilent.code x
    ↔ IsPresent s AlertKind.stationSilent.code x ∧ ∀ i, (s.stationRuntime i).silent = true → (s.station i).addr ≠ x

theorem presentAfterOwners_restartStations {s p : State} (h : StationsRestarted s p) {j : Nat} (x : Nat)
    (hj : j ≠ AlertKind.stationSilent.code) : PresentAfterOwners p j x ↔ PresentAfterOwners s j x := by
  have hlist : p.stationList = s.stationList := by rw [State.stationList, h.cgt]; rfl
  have hprobes : p.probesOf x = s.probesOf x := by rw [State.probesOf, hlist]; rfl
  have hclimate : p.climate x = s.climate x := by rw [State.climate, h.cls]; rfl
  have hzone : p.zone x = s.zone x := by rw [State.zone, h.cls]; rfl
  rw [PresentAfterOwners, h.present j x hj, hlist, hprobes, hclimate, ExposureDue, hclimate, hzone]
  rfl

theorem activateOwners_prepared (s : State) (order : OwnerOrder) : PartPrepared s (s.activateOwners order) := by
  obtain ⟨r, hr, hv⟩ := owners_prepared s order
  have hp := restartStations_spec s
  obtain ⟨hh, hruntime, htimers⟩ := restartHatches_spec r
  rw [hv]
  generalize s.restartStations = p at hp hr
  generalize r.restartHatches = v at hh hruntime htimers
  have hcgt : v.cgt = { s.cgt with runtime := [] } := hh.cgt.trans (hr.cgt.trans hp.cgt)
  have hrec (j : Nat) : v.alertRec j = r.alertRec j := by rw [State.alertRec, hh.alb]; rfl
  have hclimate (z : Nat) : p.climate z = s.climate z := by rw [State.climate, hp.cls]; rfl
  have hzone (z : Nat) : p.zone z = s.zone z := by rw [State.zone, hp.cls]; rfl
  refine ⟨hp.outside.trans (hr.outside.trans hh.outside), by rw [hcgt], by rw [hcgt], fun i => ?_,
    by rw [hh.cls, hr.probes, hp.cls], by rw [hh.cls, hr.profiles, hp.cls], by rw [hh.cls, hr.zones, hp.cls], fun i => ?_,
    fun z hz => ?_, by rw [hh.frs, hr.inputs, hp.frs], fun i => ?_, fun z hz => ?_, by rw [hh.hatches, hr.hoc, hp.hoc],
    by rw [hh.cons, hr.hoc, hp.hoc], hruntime, fun h hlt => ?_, by rw [hh.handed, hr.handed, hp.handed], fun j x hj hx => ?_,
    fun hwf x => ?_⟩
  · rw [State.stationRuntime, hcgt]
    rfl
  · rw [State.probeState, hh.cls]
    exact hr.probeState i
  · obtain ⟨e, he, hiff⟩ := hr.climate z hz
    rw [ExposureDue, hclimate, hzone] at hiff
    rw [hclimate] at he
    exact ⟨e, by rw [State.climate, hh.cls]; exact he, hiff⟩
  · rw [State.inputStage, hh.frs]
    exact hr.inputStage i
  · obtain ⟨hfire, htimer⟩ := hr.fire z hz
    rw [State.fire, hh.frs, State.releaseTimer, hh.release]
    refine ⟨hfire, htimer.trans ?_⟩
    rw [State.releaseTimer, hp.release]
    rfl
  · obtain ⟨hstep, hdwell⟩ := htimers h hlt
    rw [hstep, hdwell, State.stepTimer, State.dwellTimer, hr.step, hr.dwell, hp.step, hp.dwell]
    exact ⟨rfl, rfl⟩
  · rw [IsPresent, hrec]
    exact (hr.present j x hx).trans (presentAfterOwners_restartStations hp x hj)
  · rw [← hp.stationSilent hwf x, IsPresent, hrec]
    refine (hr.present _ x (.inr (by decide))).trans ?_
    simp [PresentAfterOwners, AlertKind.code]

end Sys2Proof.Machine
end

section
/-! ACTIVATE, its check and the start of the part (R175 to R177). -/
namespace Sys2Proof.Machine

/-- The codes of the kinds the owners raise and lower (11.4). -/
theorem ownerKind_codes : AlertKind.probeFault.code = 0 ∧ AlertKind.zoneNoData.code = 2 ∧ AlertKind.zoneExposed.code = 6
    ∧ AlertKind.detectorFault.code = 7 ∧ AlertKind.zoneUnmonitored.code = 8 := ⟨rfl, rfl, rfl, rfl, rfl⟩

theorem presentAfterOwners_zoneNoData (s : State) (z : Nat) : PresentAfterOwners s AlertKind.zoneNoData.code z
    ↔ IsPresent s AlertKind.zoneNoData.code z ∨ s.probesOf z ≠ [] := by
  simp [PresentAfterOwners, ownerKind_codes]

theorem presentAfterOwners_zoneExposed (s : State) (z : Nat) : PresentAfterOwners s AlertKind.zoneExposed.code z
    ↔ IsPresent s AlertKind.zoneExposed.code z ∨ ((s.climate z).exposed = false ∧ ExposureDue s z) := by
  simp [PresentAfterOwners, ownerKind_codes]

theorem presentAfterOwners_zoneUnmonitored (s : State) (z : Nat) : PresentAfterOwners s AlertKind.zoneUnmonitored.code z
    ↔ IsPresent s AlertKind.zoneUnmonitored.code z ∨ ∃ p ∈ s.stationList, p.2.zone = some z := by
  simp [PresentAfterOwners, ownerKind_codes]

theorem not_presentAfterOwners_faults (s : State) (x : Nat) : ¬ PresentAfterOwners s AlertKind.probeFault.code x
    ∧ ¬ PresentAfterOwners s AlertKind.detectorFault.code x := by
  simp [PresentAfterOwners, ownerKind_codes]

namespace State

section
variable {s : State} {tag : Byte} {expected : Nat} {order : OwnerOrder} {run : CheckRun}

theorem exec_activate (hready : s.ready) : exec (.activate tag expected) s
    = .next ((s.requested (.activate tag expected)).activateRequest tag expected) :=
  congrArg Host.Outcome.next (serve_eq hready _ _ _ _)

theorem checkComplete_none (h : s.mga.check = none) : s.checkComplete order = s := by
  unfold checkComplete
  rw [h]

/-- The state with its check taken off. -/
def unchecked (s : State) : State := { s with mga := { s.mga with check := none } }

theorem inconsistency_unchecked (s : State) : s.unchecked.inconsistency = s.inconsistency := rfl

theorem tableBytes_unchecked (s : State) : s.unchecked.tableBytes = s.tableBytes := rfl

theorem checkComplete_badSum (h : s.mga.check = some run) (hsum : activationSum s.tableBytes ≠ run.expected) :
    s.checkComplete order = s.unchecked.replyRefused 0x06 run.tag .tableCheck (enc2 (activationSum s.tableBytes)) := by
  unfold checkComplete
  rw [h]
  exact if_pos hsum

theorem checkComplete_inconsistent {t : TableId} {i : Nat} (h : s.mga.check = some run)
    (hsum : activationSum s.tableBytes = run.expected) (hbad : s.inconsistency = some (t, i)) :
    s.checkComplete order = s.unchecked.replyRefused 0x06 run.tag .tableConsistency [byteOf t.code, byteOf i] := by
  have hbad' : (s.setMga { s.mga with check := none }).inconsistency = some (t, i) :=
    (inconsistency_unchecked s).trans hbad
  unfold checkComplete
  rw [h]
  refine (if_neg (Classical.not_not.mpr hsum)).trans ?_
  rw [hbad']
  rfl

/-- The part as the owners find it at an accepted ACTIVATE: supervised, the supervision timer started or stopped. -/
def activating (s : State) : State :=
  State.setSupervision { s with mga := { s.mga with check := none, partState := .supervised } }
    (if s.mga.live.supervisionTimeout = 0 then s.tmb.supervision.stop
      else s.tmb.supervision.start s.mga.live.supervisionTimeout false true)

theorem checkComplete_accepted (h : s.mga.check = some run) (hsum : activationSum s.tableBytes = run.expected)
    (hgood : s.inconsistency = none) : s.checkComplete order
      = (s.activating.activateOwners order).reply 0x06 run.tag .done ([1] ++ enc2 (activationSum s.tableBytes)) := by
  have hgood' : (s.setMga { s.mga with check := none }).inconsistency = none := (inconsistency_unchecked s).trans hgood
  have hstart : ((s.setMga { s.mga with check := none }).activatePart order) = s.activating.activateOwners order := by
    unfold activatePart
    rw [startSupervision_eq]
    rfl
  unfold checkComplete
  rw [h]
  refine (if_neg (Classical.not_not.mpr hsum)).trans ?_
  rw [hgood']
  exact congrArg (fun v : State => v.reply 0x06 run.tag .done ([1] ++ enc2 (activationSum s.tableBytes))) hstart

theorem activateClimate_eq (s : State) : s.activateClimate = (List.range 16).foldl testExposed
    ((List.range 16).foldl (fun u z => if u.probesOf z = [] then u else u.raiseCondition .zoneNoData z) s.restartClimate) := by
  have hraise : (fun (u : State) z => u.raiseClimate z .noData)
      = fun u z => if u.probesOf z = [] then u else u.raiseCondition .zoneNoData z :=
    funext fun u => funext fun z => (raiseClimate_eq u z .noData).trans (ite_congr (propext (and_iff_right rfl)) (fun _ => rfl) fun _ => rfl)
  rw [← hraise]
  rfl

end
end State
end Sys2Proof.Machine

namespace Sys2Proof.Proofs
open Sys2Proof.Machine Sys2Proof.Machine.State

/-- Settles O54: the sum and its bytes, the outcomes of the check, what the owners prepare in either order
(`activateOwners_prepared`), and the first inconsistency found. -/
theorem activationChecksThenStarts : Obligations.ActivationChecksThenStarts := by
  unfold Obligations.ActivationChecksThenStarts
  refine ⟨⟨fun s tag expected hready => ?begins, ⟨rfl, activationSum_append⟩,
    fun s => ⟨tableBytes_eq s, length_tableBytes s⟩, fun s order => ⟨fun h => ?none, fun run h => ?completes⟩,
    fun s => ⟨rfl, rfl, activateClimate_eq s, rfl⟩⟩, fun s => ?consistency⟩
  case begins =>
    intro u
    have hactive : u.active = s.active := active_requested s _
    have hmga : u.mga = s.mga := mga_requested s _
    have hexec : exec (.activate tag expected) s = .next (u.activateRequest tag expected) := exec_activate hready
    refine ⟨fun h => exec_next_of_eq hexec (if_pos (hactive.trans h)), fun h => ?_⟩
    have hbegin := exec_next_of_eq hexec (if_neg (Bool.eq_false_iff.mp (hactive.trans h)))
    rw [hmga] at hbegin
    exact hbegin
  case none => exact congrArg Host.Outcome.next (checkComplete_none h)
  case completes =>
    intro u sum
    refine ⟨fun hsum => congrArg Host.Outcome.next (checkComplete_badSum h hsum),
      fun t i hsum hbad => congrArg Host.Outcome.next (checkComplete_inconsistent h hsum hbad), fun hsum hgood => ?_⟩
    intro a b v present
    have hv : PartPrepared b v := activateOwners_prepared b order
    have hexec : exec (.activateCheckComplete order) s = .next (v.reply 0x06 run.tag .done ([1] ++ enc2 sum)) :=
      congrArg Host.Outcome.next (checkComplete_accepted h hsum hgood)
    have hpresent (k : AlertKind) (x : Nat) (hk : k.code ≠ AlertKind.stationSilent.code) (hx : x < 16 ∨
        (k.code ≠ AlertKind.zoneNoData.code ∧ k.code ≠ AlertKind.zoneExposed.code
          ∧ k.code ≠ AlertKind.zoneUnmonitored.code)) : x ∈ present v k ↔ PresentAfterOwners s k.code x :=
      hv.present k.code x hk hx
    obtain ⟨houtside, hstations, hactuators, hstationRuntime, hprobes, hprofiles, hzones, hprobeState, hclimate, hinputs,
      hstage, hfire, hhatches, hconsignments, hhatchRuntime, htimers, hhanded, -, hsilent⟩ := hv
    refine ⟨hexec, houtside.mga, houtside.supervision, houtside.retry, houtside.minuteClock, houtside.secondCount, hstations,
      hactuators, hstationRuntime, hprobes, hprofiles, hzones, hprobeState, fun z hz => ?zone, ?probeFault, ?detectorFault,
      hsilent, fun k => ⟨houtside.alerts.masked k, houtside.alerts.latched k⟩, hinputs, hstage, hhatchRuntime, htimers,
      hhatches, hconsignments, houtside.csu, houtside.fsp, houtside.rx, houtside.alerts.output, hhanded, houtside.pending⟩
    case zone =>
      intro due
      obtain ⟨e, he, hiff⟩ := hclimate z hz
      obtain ⟨hrec, htimer⟩ := hfire z hz
      exact ⟨⟨e, he, hiff⟩, hrec, htimer,
        (hpresent .zoneNoData z (by decide) (.inl hz)).trans (presentAfterOwners_zoneNoData s z),
        (hpresent .zoneExposed z (by decide) (.inl hz)).trans (presentAfterOwners_zoneExposed s z),
        (hpresent .zoneUnmonitored z (by decide) (.inl hz)).trans (presentAfterOwners_zoneUnmonitored s z)⟩
    case probeFault =>
      exact List.eq_nil_iff_forall_not_mem.mpr fun x hx =>
        (not_presentAfterOwners_faults s x).1 ((hpresent .probeFault x (by decide) (.inr (by decide))).mp hx)
    case detectorFault =>
      exact List.eq_nil_iff_forall_not_mem.mpr fun x hx =>
        (not_presentAfterOwners_faults s x).2 ((hpresent .detectorFault x (by decide) (.inr (by decide))).mp hx)
  case consistency =>
    intro stationOk profileOk zoneOk addrs hatchOk stationsOk hatchesOk
    have hstation (lower : List (Nat × StationEntry)) (e : StationEntry) :
        s.stationConsistent lower e = true ↔ stationOk e lower := stationConsistent_iff s lower e
    have hprofile (i : Nat) : (s.profile i).consistent = true ↔ profileOk i := Profile.consistent_iff _
    have hzone (z : Nat) : (s.zone z).consistent z = true ↔ zoneOk z := ZoneEntry.consistent_iff _ z
    have hhatch (lower : List (Nat × HatchEntry)) (e : HatchEntry) :
        s.hatchConsistent lower e = true ↔ hatchOk e lower := hatchConsistent_iff s lower e
    have hstations (h : stationsOk) : firstFailing s.stationConsistent [] s.stationList = none :=
      firstFailing_none fun pre j f post heq => (hstation pre f).mpr (h pre j f post heq)
    have hprofiles (h : ∀ i, i < 4 → profileOk i) (i : Nat) (hi : i < 4) : (s.profile i).consistent = true :=
      (hprofile i).mpr (h i hi)
    have hzones (h : ∀ z, z < 16 → zoneOk z) (z : Nat) (hz : z < 16) : (s.zone z).consistent z = true :=
      (hzone z).mpr (h z hz)
    have hhatches (h : hatchesOk) : firstFailing s.hatchConsistent [] s.hatchesInUse = none :=
      firstFailing_none fun pre j f post heq => (hhatch pre f).mpr (h pre j f post heq)
    refine ⟨fun lower i e rest heq hbad hbefore => ?_, fun hs i hi hbad hbefore => ?_, fun hs hp => ⟨fun z hz hbad hbefore => ?_,
      fun hz => ⟨fun lower h e rest heq hbad hbefore => ?_, fun hh c front back heq hbad hfront => ?_, fun hh hall => ?_⟩⟩⟩
    · exact inconsistency_station (firstFailing_at heq (mt (hstation lower e).mp hbad)
        fun pre j f post heq' hlt => (hstation pre f).mpr (hbefore pre j f post heq' hlt))
    · exact inconsistency_profile (hstations hs) hi (mt (hprofile i).mp hbad) fun j hj => (hprofile j).mpr (hbefore j hj)
    · exact inconsistency_zone (hstations hs) (hprofiles hp) hz (mt (hzone z).mp hbad)
        fun y hy => (hzone y).mpr (hbefore y hy)
    · exact inconsistency_hatch (hstations hs) (hprofiles hp) (hzones hz) (firstFailing_at heq (mt (hhatch lower e).mp hbad)
        fun pre j f post heq' hlt => (hhatch pre f).mpr (hbefore pre j f post heq' hlt))
    · exact inconsistency_consignment (hstations hs) (hprofiles hp) (hzones hz) (hhatches hh) heq hbad hfront
    · exact inconsistency_none (hstations hs) (hprofiles hp) (hzones hz) (hhatches hh) hall

end Sys2Proof.Proofs
end

section
/-! What the owners clear at an accepted DEACTIVATE (R178). -/
namespace Sys2Proof.Machine

/-! ### Lowers of several kinds -/

/-- What lowers of several kinds for every source do: each kind has none left. -/
structure KindsLowered (l : List AlertKind) (s t : State) : Prop where
  reported : Reported s t
  passes : AlertsPass s t
  slp : t.slp = s.slp
  latches : SameLatches s t
  tmb : t.tmb = s.tmb
  present : ∀ j x, IsPresent t j x ↔ IsPresent s j x ∧ ∀ k ∈ l, j ≠ k.code

theorem foldl_lowerAll (l : List AlertKind) (s : State) : KindsLowered l s (l.foldl State.lowerAll s) := by
  induction l generalizing s with
  | nil => exact ⟨Reported.rfl' s, AlertsPass.rfl' s, rfl, fun _ => ⟨rfl, rfl, rfl⟩, rfl, fun j x => by simp⟩
  | cons k l ih =>
    obtain ⟨⟨hpass, hslp⟩, hpresent⟩ := lowerAll_spec s k
    have h := ih (s.lowerAll k)
    refine ⟨(lowerAll_reported s k).trans h.reported, hpass.trans h.passes, h.slp.trans hslp,
      (lowerAll_sameLatches s k).trans h.latches, h.tmb.trans (lowerAll_tmb s k), fun j x => ?_⟩
    rw [List.foldl_cons, h.present, IsPresent, hpresent, List.forall_mem_cons, and_assoc]

theorem foldl_hand (f : Nat → Instr) (l : List Nat) (s : State) :
    l.foldl (fun u z => u.hand (f z)) s = { s with handed := s.handed ++ l.map f } := by
  induction l generalizing s with
  | nil => rw [List.map_nil, List.append_nil]; rfl
  | cons z l ih =>
    rw [List.foldl_cons, ih, List.map_cons, List.append_cons]
    rfl

/-! ### The owners one by one -/

/-- What the Climate Supervisor does at an accepted DEACTIVATE. -/
structure ClimateCleared (s t : State) : Prop where
  only : ClimateOnly s t
  slp : t.slp = s.slp
  latches : SameLatches s t
  tmb : t.tmb = s.tmb
  probeState : ∀ i, t.probeState i = .noSample
  climate : ∀ z, z < 16 → t.climate z = restartedRec s z
  present : ∀ j x, IsPresent t j x ↔ IsPresent s j x ∧ ∀ k ∈ [AlertKind.probeFault, .zoneNoData, .climateWarning,
    .climateExcursion, .climateCritical], j ≠ k.code

theorem deactivateClimate_cleared (s : State) : ClimateCleared s s.deactivateClimate := by
  obtain ⟨honly, hslp, hlatches, htmb, hprobes, hclimate, hpresent⟩ := restartClimate_spec s
  have heq : s.deactivateClimate = [AlertKind.zoneNoData, .climateWarning, .climateExcursion, .climateCritical].foldl
    State.lowerAll s.restartClimate := by
    unfold State.deactivateClimate
    rw [List.foldl_cons, List.foldl_cons, List.foldl_cons, List.foldl_cons, List.foldl_nil]
  rw [heq]
  generalize s.restartClimate = t at honly hslp hlatches htmb hprobes hclimate hpresent
  have h := foldl_lowerAll [.zoneNoData, .climateWarning, .climateExcursion, .climateCritical] t
  generalize [AlertKind.zoneNoData, .climateWarning, .climateExcursion, .climateCritical].foldl State.lowerAll t = u at h
  refine ⟨honly.trans (ClimateOnly.of h.reported h.passes), h.slp.trans hslp, hlatches.trans h.latches, h.tmb.trans htmb,
    fun i => ?_, fun z hz => ?_, fun j x => ?_⟩
  · rw [State.probeState, h.reported.cls]
    exact hprobes i
  · rw [State.climate, h.reported.cls]
    exact hclimate z hz
  · rw [h.present, hpresent]
    simp only [List.forall_mem_cons, and_assoc]

/-- The changes of UNMONITORED that the clearing of the flags hands on, in zone order (R75, R97). -/
def unmonitoredCleared (s : State) : List Instr :=
  ((List.range 16).filter (fun z => (s.fire z).unmonitored)).map (fun z => Instr.zoneReport z (.unmonitoredChanged false))

/-- What the Fire Supervisor does at an accepted DEACTIVATE. -/
structure FireCleared (s t : State) : Prop where
  only : FireOnly s t
  slp : t.slp = s.slp
  latches : SameLatches s t
  pulse : t.tmb.pulse = s.tmb.pulse
  inputStage : ∀ i, t.inputStage i = .noReport
  fire : ∀ z, t.fire z = ⟨.quiet, none, [], false, false⟩
  release : ∀ z, z < 16 → t.releaseTimer z = (s.releaseTimer z).stop
  handed : t.handed = s.handed ++ unmonitoredCleared s
  present : ∀ j x, IsPresent t j x ↔ IsPresent s j x ∧ ∀ k ∈ [AlertKind.detectorFault, .zoneUnmonitored], j ≠ k.code

theorem deactivateFire_cleared (s : State) : FireCleared s s.deactivateFire := by
  obtain ⟨honly, hslp, hlatches, hpulse, hhanded, hstage, hfire, hrelease, hpresent⟩ := restartFire_spec s
  have heq : s.deactivateFire = { s.restartFire.lowerAll .zoneUnmonitored with
      handed := (s.restartFire.lowerAll .zoneUnmonitored).handed ++ unmonitoredCleared s } := foldl_hand _ _ _
  rw [heq]
  generalize s.restartFire = t at honly hslp hlatches hpulse hhanded hstage hfire hrelease hpresent
  have h : KindsLowered [.zoneUnmonitored] t (t.lowerAll .zoneUnmonitored) := foldl_lowerAll [.zoneUnmonitored] t
  generalize t.lowerAll .zoneUnmonitored = u at h
  have hu : FireOnly t u := FireOnly.of h.reported h.passes
  have hhand : FireOnly u { u with handed := u.handed ++ unmonitoredCleared s } :=
    ⟨⟨rfl, rfl, rfl, rfl, rfl, rfl, rfl, rfl, rfl, AlertsPass.same rfl rfl⟩, rfl, rfl, rfl, rfl, rfl, rfl⟩
  refine ⟨honly.trans (hu.trans hhand), h.slp.trans hslp, hlatches.trans h.latches,
    (congrArg Tmb.pulse h.tmb).trans hpulse, fun i => ?_, fun z => ?_, fun z hz => ?_, ?_, fun j x => ?_⟩
  · show u.inputStage i = _
    rw [State.inputStage, h.reported.frs]
    exact hstage i
  · show u.fire z = _
    rw [State.fire, h.reported.frs]
    exact hfire z
  · show u.releaseTimer z = _
    rw [State.releaseTimer, h.tmb]
    exact hrelease z hz
  · show u.handed ++ _ = _
    rw [h.reported.handed, hhanded]
  · show IsPresent u j x ↔ _
    rw [h.present, hpresent]
    simp only [List.forall_mem_cons, and_assoc]

/-! ### All owners -/

/-- What all owners do at an accepted DEACTIVATE. -/
structure PartCleared (s v : State) : Prop where
  outside : KeptOutside s v
  pulse : v.tmb.pulse = s.tmb.pulse
  hatchTimers : ∀ h, h < 4 → v.stepTimer h = (s.stepTimer h).stop ∧ v.dwellTimer h = (s.dwellTimer h).stop
  release : ∀ z, z < 16 → v.releaseTimer z = (s.releaseTimer z).stop
  stations : v.cgt.stations = s.cgt.stations
  actuators : v.cgt.actuators = s.cgt.actuators
  stationRuntime : ∀ i, v.stationRuntime i = ⟨0, false, none⟩
  probes : v.cls.probes = s.cls.probes
  profiles : v.cls.profiles = s.cls.profiles
  zones : v.cls.zones = s.cls.zones
  probeState : ∀ i, v.probeState i = .noSample
  climate : ∀ z, z < 16 → v.climate z = restartedRec s z
  inputs : v.frs.inputs = s.frs.inputs
  inputStage : ∀ i, v.inputStage i = .noReport
  fire : ∀ z, v.fire z = ⟨.quiet, none, [], false, false⟩
  hatchRuntime : ∀ h, v.hatchRuntime h = ⟨.noReport, false, false, false, false, none, false⟩
  hatches : v.hoc.hatches = s.hoc.hatches
  consignments : v.hoc.consignments = s.hoc.consignments
  slp : v.slp = s.slp
  cleared : ∀ k ∈ [AlertKind.probeFault, .detectorFault, .zoneUnmonitored, .zoneNoData, .climateWarning, .climateExcursion,
    .climateCritical], (v.alertRec k.code).present = []
  stationSilent : Tab.wf .fresh s.cgt.runtime = true → ∀ x, IsPresent v AlertKind.stationSilent.code x
    ↔ IsPresent s AlertKind.stationSilent.code x ∧ ∀ i, (s.stationRuntime i).silent = true → (s.station i).addr ≠ x
  handed : v.handed = s.handed ++ unmonitoredCleared s
  latches : SameLatches s v

theorem deactivateOwners_cleared (s : State) : PartCleared s s.deactivateOwners := by
  have hp := restartStations_spec s
  have hq := deactivateClimate_cleared s.restartStations
  have hr := deactivateFire_cleared s.restartStations.deactivateClimate
  obtain ⟨hh, hruntime, htimers⟩ := restartHatches_spec s.restartStations.deactivateClimate.deactivateFire
  change HatchesOnly _ s.deactivateOwners at hh
  change ∀ h, s.deactivateOwners.hatchRuntime h = _ at hruntime
  change ∀ h, h < 4 → s.deactivateOwners.stepTimer h = _ ∧ s.deactivateOwners.dwellTimer h = _ at htimers
  generalize s.deactivateOwners = v at hh hruntime htimers
  generalize s.restartStations.deactivateClimate.deactivateFire = r at hr hh htimers
  generalize s.restartStations.deactivateClimate = q at hq hr
  generalize s.restartStations = p at hp hq
  have hcgt : v.cgt = { s.cgt with runtime := [] } := hh.cgt.trans (hr.only.cgt.trans (hq.only.cgt.trans hp.cgt))
  have hrec (j : Nat) : v.alertRec j = r.alertRec j := by rw [State.alertRec, hh.alb]; rfl
  have hpresent (j x : Nat) : IsPresent v j x ↔ (IsPresent p j x ∧ ∀ k ∈ [AlertKind.probeFault, .zoneNoData,
      .climateWarning, .climateExcursion, .climateCritical], j ≠ k.code)
      ∧ ∀ k ∈ [AlertKind.detectorFault, .zoneUnmonitored], j ≠ k.code := by
    rw [IsPresent, hrec]
    exact (hr.present j x).trans (and_congr_left fun _ => hq.present j x)
  refine ⟨hp.outside.trans (hq.only.outside.trans (hr.only.outside.trans hh.outside)),
    by rw [hh.pulse, hr.pulse, hq.tmb, hp.pulse], fun h hlt => ?_, fun z hz => ?_, by rw [hcgt], by rw [hcgt], fun i => ?_,
    by rw [hh.cls, hr.only.cls, hq.only.probes, hp.cls], by rw [hh.cls, hr.only.cls, hq.only.profiles, hp.cls],
    by rw [hh.cls, hr.only.cls, hq.only.zones, hp.cls], fun i => ?_, fun z hz => ?_,
    by rw [hh.frs, hr.only.inputs, hq.only.frs, hp.frs], fun i => ?_, fun z => ?_, hruntime,
    by rw [hh.hatches, hr.only.hoc, hq.only.hoc, hp.hoc], by rw [hh.cons, hr.only.hoc, hq.only.hoc, hp.hoc],
    by rw [hh.slp, hr.slp, hq.slp, hp.slp], fun k hk => ?_, fun hwf x => ?_, ?_,
    hp.latches.trans (hq.latches.trans (hr.latches.trans (SameLatches.same (congrArg Alb.alerts hh.alb))))⟩
  · obtain ⟨hstep, hdwell⟩ := htimers h hlt
    rw [hstep, hdwell, State.stepTimer, State.dwellTimer, hr.only.step, hr.only.dwell, hq.tmb, hp.step, hp.dwell]
    exact ⟨rfl, rfl⟩
  · rw [State.releaseTimer, hh.release]
    refine (hr.release z hz).trans ?_
    rw [State.releaseTimer, hq.tmb, hp.release]
    rfl
  · rw [State.stationRuntime, hcgt]
    rfl
  · rw [State.probeState, hh.cls, hr.only.cls]
    exact hq.probeState i
  · rw [State.climate, hh.cls, hr.only.cls]
    refine (hq.climate z hz).trans ?_
    rw [restartedRec, State.climate, hp.cls]
    rfl
  · rw [State.inputStage, hh.frs]
    exact hr.inputStage i
  · rw [State.fire, hh.frs]
    exact hr.fire z
  · refine List.eq_nil_iff_forall_not_mem.mpr fun x hx => ?_
    obtain ⟨⟨-, hclimate⟩, hfire⟩ := (hpresent k.code x).mp hx
    simp only [List.mem_cons, List.not_mem_nil, or_false] at hk hclimate hfire
    rcases hk with rfl | rfl | rfl | rfl | rfl | rfl | rfl
    · exact hclimate _ (by simp) rfl
    · exact hfire _ (by simp) rfl
    · exact hfire _ (by simp) rfl
    · exact hclimate _ (by simp) rfl
    · exact hclimate _ (by simp) rfl
    · exact hclimate _ (by simp) rfl
    · exact hclimate _ (by simp) rfl
  · rw [← hp.stationSilent hwf x, hpresent, and_assoc]
    exact and_iff_left ⟨by decide, by decide⟩
  · have hfire (z : Nat) : q.fire z = s.fire z := by rw [State.fire, hq.only.frs, hp.frs]; rfl
    rw [hh.handed, hr.handed, hq.only.handed, hp.handed]
    simp only [unmonitoredCleared, hfire]

end Sys2Proof.Machine
end

section
/-! DEACTIVATE and RESTART (R178, R179). -/
namespace Sys2Proof.Machine
namespace State

section
variable {s : State} {tag : Byte}

/-! ### DEACTIVATE -/

theorem exec_deactivate (hready : s.ready) :
    exec (.deactivate tag) s = .next ((s.requested (.deactivate tag)).deactivateRequest tag) :=
  congrArg Host.Outcome.next (serve_eq hready _ _ _ _)

theorem deactivateRequest_config (h : s.mga.partState = .config) :
    s.deactivateRequest tag = s.replyRefused 0x07 tag .notActive [] := by
  unfold deactivateRequest
  rw [h]
  rfl

theorem deactivateRequest_autonomous (h : s.mga.partState = .autonomous) :
    s.deactivateRequest tag = s.replyRefused 0x07 tag .autonomous [] := by
  unfold deactivateRequest
  rw [h]
  rfl

/-- The part as the owners find it at an accepted DEACTIVATE: in CONFIG, the supervision timer stopped. -/
def deactivating (s : State) : State :=
  State.setSupervision { s with mga := { s.mga with partState := .config } } s.tmb.supervision.stop

theorem deactivateRequest_busy {h : Nat} (hpart : s.mga.partState = .supervised) (hbusy : s.busyHatch = some h) :
    s.deactivateRequest tag = s.replyRefused 0x07 tag .handoverActive [byteOf h] := by
  unfold deactivateRequest
  rw [hpart]
  dsimp only
  rw [hbusy]
  rfl

theorem deactivateRequest_fiery {z : Nat} (hpart : s.mga.partState = .supervised) (hbusy : s.busyHatch = none)
    (hfiery : s.fieryZone = some z) : s.deactivateRequest tag = s.replyRefused 0x07 tag .fireActive [byteOf z] := by
  unfold deactivateRequest
  rw [hpart]
  dsimp only
  rw [hbusy, hfiery]
  rfl

theorem deactivateRequest_accepted (hpart : s.mga.partState = .supervised) (hbusy : s.busyHatch = none)
    (hfiery : s.fieryZone = none) : s.deactivateRequest tag = s.deactivating.deactivateOwners.reply 0x07 tag .done [0] := by
  unfold deactivateRequest
  rw [hpart]
  dsimp only
  rw [hbusy, hfiery]
  rfl

theorem busyHatch_some {h : Nat} (hlt : h < 4) (hbusy : ∃ c ∈ s.hoc.consignments, c.hatch = h ∧ c.state ≠ .waiting)
    (hbefore : ∀ j, j < h → ¬ ∃ c ∈ s.hoc.consignments, c.hatch = j ∧ c.state ≠ .waiting) : s.busyHatch = some h :=
  List.find?_range_eq_some.mpr ⟨(activeOn_isSome_iff h).mpr hbusy, List.mem_range.mpr hlt, fun j hj => by
    rw [Bool.eq_false_iff.mpr (mt (activeOn_isSome_iff j).mp (hbefore j hj))]
    rfl⟩

theorem busyHatch_none (hfree : ∀ h, h < 4 → ¬ ∃ c ∈ s.hoc.consignments, c.hatch = h ∧ c.state ≠ .waiting) :
    s.busyHatch = none :=
  List.find?_range_eq_none.mpr fun h hlt => by
    rw [Bool.eq_false_iff.mpr (mt (activeOn_isSome_iff h).mp (hfree h hlt))]
    rfl

theorem fiery_iff (s : State) (z : Nat) :
    (decide (s.fireState z ≠ .quiet) || !(s.fire z).coupledSources.isEmpty) = true
      ↔ s.fireState z ≠ .quiet ∨ (s.fire z).coupledSources ≠ [] := by
  rw [Bool.or_eq_true, decide_eq_true_eq, Bool.not_eq_true', List.isEmpty_eq_false_iff]

theorem fieryZone_some {z : Nat} (hlt : z < 16) (hfiery : s.fireState z ≠ .quiet ∨ (s.fire z).coupledSources ≠ [])
    (hbefore : ∀ y, y < z → ¬ (s.fireState y ≠ .quiet ∨ (s.fire y).coupledSources ≠ [])) : s.fieryZone = some z :=
  List.find?_range_eq_some.mpr ⟨(s.fiery_iff z).mpr hfiery, List.mem_range.mpr hlt, fun y hy => by
    rw [Bool.eq_false_iff.mpr (mt (s.fiery_iff y).mp (hbefore y hy))]
    rfl⟩

theorem fieryZone_none (hquiet : ∀ z, z < 16 → ¬ (s.fireState z ≠ .quiet ∨ (s.fire z).coupledSources ≠ [])) :
    s.fieryZone = none :=
  List.find?_range_eq_none.mpr fun z hlt => by
    rw [Bool.eq_false_iff.mpr (mt (s.fiery_iff z).mp (hquiet z hlt))]
    rfl

/-! ### RESTART -/

theorem exec_restart (hready : s.ready) :
    exec (.restart tag) s = .next ((s.requested (.restart tag)).restartRequest tag) :=
  congrArg Host.Outcome.next (serve_eq hready _ _ _ _)

theorem restartRequest_room (h : s.slp.queue.length < 48) : s.restartRequest tag
    = State.offerSite { s with mga := { s.mga with restartPending := true } }
        ⟨⟨s.mga.live.siteAddress, s.mga.live.ownAddress, 0x31, [0x08, tag, 0, 0]⟩, .restartReply⟩ :=
  if_neg (mt (siteFull_iff s).mp (Nat.not_le.mpr h))

theorem restartRequest_full (h : 48 ≤ s.slp.queue.length) : s.restartRequest tag = s.resetPart :=
  if_pos ((siteFull_iff s).mpr h)

theorem siteTransmitted_restart {f : SiteItem} (htx : s.slp.tx = some f) (htag : f.tag = .restartReply) :
    s.siteTransmitted = s.resetPart := by
  unfold siteTransmitted
  rw [htx]
  exact if_pos htag

end
end State
end Sys2Proof.Machine

namespace Sys2Proof.Proofs
open Sys2Proof.Machine Sys2Proof.Machine.State

/-- Settles O55: the checks in order, what the owners clear (`deactivateOwners_cleared`), and the resets of RESTART. -/
theorem deactivateAndRestart : Obligations.DeactivateAndRestart := by
  unfold Obligations.DeactivateAndRestart
  refine ⟨fun s tag hready => ?deactivate, fun s tag hready => ?restart,
    fun s f htx htag => congrArg Host.Outcome.next (siteTransmitted_restart htx htag)⟩
  case deactivate =>
    intro u beyond fiery
    have hexec : exec (.deactivate tag) s = .next (u.deactivateRequest tag) := exec_deactivate hready
    obtain ⟨t, hu⟩ : ∃ t, u = (s.takeHanded (.deactivate tag)).setSupervision t := requested_shape s _
    clear_value u
    subst hu
    refine ⟨fun h => exec_next_of_eq hexec (deactivateRequest_config h),
      fun h => exec_next_of_eq hexec (deactivateRequest_autonomous h),
      fun h hpart hlt hbusy hbefore => exec_next_of_eq hexec (deactivateRequest_busy hpart (busyHatch_some hlt hbusy hbefore)),
      fun z hpart hfree hlt hfiery hbefore => exec_next_of_eq hexec
        (deactivateRequest_fiery hpart (busyHatch_none hfree) (fieryZone_some hlt hfiery hbefore)),
      fun hpart hfree hquiet => ?_⟩
    have hdone := exec_next_of_eq hexec (deactivateRequest_accepted hpart (busyHatch_none hfree) (fieryZone_none hquiet))
    have hv := deactivateOwners_cleared (State.setSupervision (s.takeHanded (.deactivate tag)) t).deactivating
    generalize (State.setSupervision (s.takeHanded (.deactivate tag)) t).deactivating.deactivateOwners = v at hdone hv
    have houtside := hv.outside
    exact ⟨v, hdone, houtside.mga, houtside.supervision, houtside.retry, hv.pulse, houtside.minuteClock, houtside.secondCount,
      hv.hatchTimers, hv.release, hv.stations, hv.actuators, hv.stationRuntime, hv.probes, hv.profiles, hv.zones,
      hv.probeState, hv.climate, hv.inputs, hv.inputStage, fun z _ => hv.fire z, hv.hatchRuntime, hv.hatches,
      hv.consignments, houtside.csu, houtside.fsp, hv.slp, hv.cleared, hv.stationSilent, hv.handed, hv.latches⟩
  case restart =>
    intro u item
    have hexec : exec (.restart tag) s = .next (u.restartRequest tag) := exec_restart hready
    obtain ⟨t, hu⟩ : ∃ t, u = (s.takeHanded (.restart tag)).setSupervision t := requested_shape s _
    clear_value u
    subst hu
    exact ⟨fun h => exec_next_of_eq hexec (restartRequest_room h), fun h => exec_next_of_eq hexec (restartRequest_full h)⟩

end Sys2Proof.Proofs
end

section
/-! The commissioning store: STORE BURN, its completion, SET LIVE, and the burn counts over every command (R180 to R182). -/
namespace Sys2Proof.Machine

/-! ### Items -/

theorem storeItem_coding : IsCoding StoreItem.ofCode StoreItem.code 4 where
  reads_code i := by cases i <;> rfl
  code_reads := by decide
  beyond := noneBeyond fun _ => rfl

theorem Figures.get_set (f : Figures) (i j : StoreItem) (v : Nat) : (f.set i v).get j = if j = i then v else f.get j := by
  cases i <;> cases j <;> rfl

namespace State

theorem addressClash_iff (f : Figures) (i : StoreItem) (v : Nat) : addressClash f i v = true
    ↔ (i = .ownAddress ∧ v = f.siteAddress) ∨ (i = .siteAddress ∧ v = f.ownAddress) := by
  cases i with
  | ownAddress =>
    refine decide_eq_true_iff.trans ⟨fun h => .inl ⟨rfl, h⟩, fun h => ?_⟩
    rcases h with ⟨-, h⟩ | ⟨h, -⟩
    · exact h
    · cases h
  | siteAddress =>
    refine decide_eq_true_iff.trans ⟨fun h => .inr ⟨rfl, h⟩, fun h => ?_⟩
    rcases h with ⟨h, -⟩ | ⟨-, h⟩
    · cases h
    · exact h
  | supervisionTimeout | retryInterval | vaultId =>
    exact ⟨fun h => absurd h Bool.false_ne_true, fun h => h.elim (fun h => nomatch h.1) (fun h => nomatch h.1)⟩

section
variable {s : State} {tag : Byte} {item value v : Nat} {i : StoreItem}

/-! ### STORE BURN -/

theorem exec_storeBurn (hready : s.ready) : exec (.storeBurn tag item value) s
    = .next ((s.requested (.storeBurn tag item value)).storeBurnRequest tag item value) :=
  congrArg Host.Outcome.next (serve_eq hready _ _ _ _)

theorem storeBurnRequest_malformed (h : 4 < item) :
    s.storeBurnRequest tag item value = s.reply 0x50 tag .malformed [] := by
  unfold storeBurnRequest
  rw [storeItem_coding.beyond item h]
  rfl

theorem storeBurnRequest_range (hi : StoreItem.ofCode item = some i) (hv : i.taken value = none) :
    s.storeBurnRequest tag item value = s.reply 0x50 tag .range [] := by
  unfold storeBurnRequest
  rw [hi]
  dsimp only
  rw [hv]
  rfl

theorem storeBurnRequest_taken (hi : StoreItem.ofCode item = some i) (hv : i.taken value = some v) :
    s.storeBurnRequest tag item value
      = if s.mga.burn.isSome then s.reply 0x50 tag .busy []
        else if 4 ≤ s.mga.burns.get i then s.reply 0x50 tag .exhausted []
        else if addressClash s.mga.stored i v then s.replyRefused 0x50 tag .addressClash []
        else s.setMga { s.mga with burns := s.mga.burns.set i (s.mga.burns.get i + 1), burn := some ⟨i, v, tag⟩ } := by
  unfold storeBurnRequest
  rw [hi]
  dsimp only
  rw [hv]
  rfl

theorem burnComplete_none (h : s.mga.burn = none) : s.burnComplete = s := by
  unfold burnComplete
  rw [h]

theorem burnComplete_some {b : BurnRec} (h : s.mga.burn = some b) : s.burnComplete
    = State.reply { s with mga := { s.mga with stored := s.mga.stored.set b.item b.value, burn := none } } 0x50 b.tag .done
        (enc1 b.item.code ++ enc2 b.value ++ enc1 (s.mga.burns.get b.item)) := by
  unfold burnComplete
  rw [h]
  rfl

/-! ### SET LIVE -/

theorem exec_setLive (hready : s.ready) : exec (.setLive tag item value) s
    = .next ((s.requested (.setLive tag item value)).setLiveRequest tag item value) :=
  congrArg Host.Outcome.next (serve_eq hready _ _ _ _)

theorem setLiveRequest_malformed (h : 4 < item) : s.setLiveRequest tag item value = s.reply 0x51 tag .malformed [] := by
  unfold setLiveRequest
  rw [storeItem_coding.beyond item h]
  rfl

theorem setLiveRequest_range (hi : StoreItem.ofCode item = some i) (hv : i.taken value = none) :
    s.setLiveRequest tag item value = s.reply 0x51 tag .range [] := by
  unfold setLiveRequest
  rw [hi]
  dsimp only
  rw [hv]
  rfl

theorem setLiveRequest_clash (hi : StoreItem.ofCode item = some i) (hv : i.taken value = some v)
    (hclash : addressClash s.mga.live i v = true) :
    s.setLiveRequest tag item value = s.replyRefused 0x51 tag .addressClash [] := by
  unfold setLiveRequest
  rw [hi]
  dsimp only
  rw [hv]
  exact if_pos hclash

theorem setLiveRequest_station {k : Nat} (hi : StoreItem.ofCode item = some i) (hv : i.taken value = some v)
    (hclash : ¬ addressClash s.mga.live i v = true) (hstation : s.liveClash i v = some k) :
    s.setLiveRequest tag item value = s.replyRefused 0x51 tag .addressClash [byteOf k] := by
  unfold setLiveRequest
  rw [hi]
  dsimp only
  rw [hv]
  refine (if_neg hclash).trans ?_
  rw [hstation]
  rfl

theorem setLiveRequest_done (hi : StoreItem.ofCode item = some i) (hv : i.taken value = some v)
    (hclash : ¬ addressClash s.mga.live i v = true) (hstation : s.liveClash i v = none) :
    s.setLiveRequest tag item value = (s.reply 0x51 tag .done (enc1 item ++ enc2 v)).changeLive i v := by
  rw [← storeItem_coding.eq_some_iff.mp hi]
  unfold setLiveRequest
  rw [storeItem_coding.reads_code i]
  dsimp only
  rw [hv]
  refine (if_neg hclash).trans ?_
  rw [hstation]
  rfl

theorem liveClash_some {front back : List (Nat × StationEntry)} {k : Nat} {e : StationEntry} (hactive : s.active = true)
    (haddress : i = .ownAddress ∨ i = .siteAddress) (hlist : s.stationList = front ++ (k, e) :: back)
    (hfront : ∀ q ∈ front, q.2.addr ≠ v) (he : e.addr = v) : s.liveClash i v = some k := by
  have hfind : s.stationList.find? (fun p => decide (p.2.addr = v)) = some (k, e) :=
    List.find?_eq_some_iff_append.mpr ⟨decide_eq_true he, front, back, hlist,
      fun q hq => by rw [decide_eq_false (hfront q hq)]; rfl⟩
  unfold liveClash
  rw [if_pos (Bool.and_eq_true_iff.mpr ⟨hactive, decide_eq_true haddress⟩), hfind]
  rfl

theorem liveClash_none (h : ¬ (s.active = true ∧ (i = .ownAddress ∨ i = .siteAddress) ∧ ∃ p ∈ s.stationList, p.2.addr = v)) :
    s.liveClash i v = none := by
  unfold liveClash
  by_cases hcond : (s.active && decide (i = .ownAddress ∨ i = .siteAddress)) = true
  · obtain ⟨hactive, haddress⟩ := Bool.and_eq_true_iff.mp hcond
    have hfind : s.stationList.find? (fun p => decide (p.2.addr = v)) = none :=
      List.find?_eq_none.mpr fun p hp hv => h ⟨hactive, of_decide_eq_true haddress, p, hp, of_decide_eq_true hv⟩
    rw [if_pos hcond, hfind]
    rfl
  · exact if_neg hcond

theorem changeLive_plain (h : i ≠ .supervisionTimeout ∨ s.mga.partState ≠ .supervised) :
    s.changeLive i v = s.setMga { s.mga with live := s.mga.live.set i v } :=
  if_neg fun hboth => h.elim (· hboth.1) (· hboth.2)

theorem changeLive_supervision (h : s.mga.partState = .supervised) : s.changeLive .supervisionTimeout v
    = (s.setMga { s.mga with live := s.mga.live.set .supervisionTimeout v }).setSupervision
        (if v = 0 then s.tmb.supervision.stop else s.tmb.supervision.start v false true) :=
  (if_pos ⟨rfl, h⟩).trans (startSupervision_eq _)

end
end State

/-! ### The burn counts -/

/-- No burn count of `t` is below that of `s`, and none passes four that had not. -/
def BurnsFollow (s t : State) : Prop :=
  ∀ i, s.mga.burns.get i ≤ t.mga.burns.get i ∧ (s.mga.burns.get i ≤ 4 → t.mga.burns.get i ≤ 4)

section
variable {s t u : State}

theorem BurnsFollow.rfl' (s : State) : BurnsFollow s s := fun _ => ⟨Nat.le_refl _, id⟩

theorem BurnsFollow.of_mga (h : BurnsFollow s t) (hu : u.mga = t.mga) : BurnsFollow s u := by
  unfold BurnsFollow
  rw [hu]
  exact h

/-- A change of the Management Agent counts at most one burn of an item not exhausted. -/
theorem BurnsFollow.setMga (h : BurnsFollow s t) {m : Mga} (hm : ∀ i, m.burns.get i = t.mga.burns.get i
    ∨ (t.mga.burns.get i < 4 ∧ m.burns.get i = t.mga.burns.get i + 1)) : BurnsFollow s (t.setMga m) := fun i => by
  obtain ⟨hle, hfour⟩ := h i
  show s.mga.burns.get i ≤ m.burns.get i ∧ (s.mga.burns.get i ≤ 4 → m.burns.get i ≤ 4)
  rcases hm i with heq | ⟨hlt, heq⟩
  · rw [heq]
    exact ⟨hle, hfour⟩
  · rw [heq]
    exact ⟨by omega, fun _ => by omega⟩

end

theorem mga_siteStart (s : State) : s.siteStart.mga = s.mga := by
  unfold State.siteStart
  cases s.slp.tx <;> cases s.slp.queue <;> rfl

theorem burnsFollow_keeps (s : State) : KeepsRelease (BurnsFollow s) where
  enqueue := fun _ f hs _ => hs.of_mga (siteEnqueue_reported _ f).mga
  record := fun _ _ _ hs => hs
  pulse := fun t hs => hs.of_mga (pulseLatch_reported t).mga
  present := fun t k p hs => hs.of_mga (setPresent_reported t k p).mga
  urgent := fun _ _ hs _ => hs
  takeUrgent := fun _ _ _ hs _ => hs
  ordinary := fun _ _ hs _ => hs
  dropOrdinary := fun _ _ hs _ => hs
  sendOrdinary := fun _ _ hs => hs
  poll := fun _ _ _ hs _ => hs
  idle := fun _ hs => hs
  manual := fun _ _ hs => hs
  unlockRef := fun _ _ hs => hs
  hand := fun _ _ hs => hs
  takeHanded := fun _ _ hs => hs
  runtime := fun _ _ _ hs _ => hs
  clearRuntime := fun _ hs => hs
  zone := fun _ _ _ hs => hs
  probeState := fun _ _ _ hs => hs
  clearProbes := fun _ hs => hs
  climate := fun _ _ _ hs _ => hs
  inputStage := fun _ _ _ hs => hs
  fire := fun _ _ _ hs => hs
  clearFire := fun _ hs => hs
  media := fun _ _ _ hs => hs
  scan := fun _ _ hs => hs
  sweep := fun _ _ hs => hs
  hatchRuntime := fun _ _ _ hs => hs
  clearHatches := fun _ hs => hs
  setConsignment := fun _ _ hs => hs
  addConsignment := fun _ _ hs _ => hs
  dropConsignment := fun _ _ hs => hs
  releaseTimer := fun _ _ _ hs => hs
  stepTimer := fun _ _ _ hs => hs
  dwellTimer := fun _ _ _ hs => hs
  supervision := fun _ _ hs => hs
  retry := fun _ _ hs => hs
  siteRx := fun _ _ hs => hs
  txDone := fun _ hs => hs.of_mga (mga_siteStart _)
  fieldRx := fun _ _ _ hs => hs
  window := fun _ _ _ _ hs => hs
  station := fun _ _ _ hs => hs
  actuator := fun _ _ _ hs => hs
  probeCal := fun _ _ _ hs => hs
  profile := fun _ _ _ hs => hs
  inputKind := fun _ _ _ hs => hs
  classEntry := fun _ _ _ hs => hs
  hatch := fun _ _ _ hs => hs
  endPulse := fun _ hs => hs
  secondCount := fun _ _ hs _ => hs
  minuteClock := fun _ _ hs => hs
  mga := fun _ _ hs hm => hs.setMga hm
  clearAlert := fun t k hs => hs.of_mga (by
    obtain ⟨⟨a, heq, -⟩, -⟩ := State.clearAlert_updates t k
    rw [heq])
  masks := fun t b ks hs => hs.of_mga (by
    obtain ⟨a, heq, -⟩ := State.foldl_maskAlert b ks t
    rw [heq]
    rfl)
  reset := fun _ hs => hs
  releaseFrame := fun _ _ _ hs => hs

end Sys2Proof.Machine

namespace Sys2Proof.Proofs
open Sys2Proof.Machine Sys2Proof.Machine.State

/-- Settles O56: the requests in the order of their checks, and the burn counts by every update of the model
(`burnsFollow_keeps`). -/
theorem commissioningStoreAndItsBurns : Obligations.CommissioningStoreAndItsBurns := by
  unfold Obligations.CommissioningStoreAndItsBurns
  refine ⟨⟨fun v => ⟨rfl, rfl, ?timeout, ?interval, rfl⟩, fun s tag item value hready => ?burn,
    fun s => ⟨fun h => congrArg Host.Outcome.next (burnComplete_none h),
      fun b h => congrArg Host.Outcome.next (burnComplete_some h)⟩, fun s tag item value hready => ?live, Figures.get_set⟩,
    fun c s t i hexec => (burnsFollow_keeps s).exec c (BurnsFollow.rfl' s) hexec i⟩
  case timeout => rw [StoreItem.taken, clampNat_eq_min_max (by decide)]
  case interval => rw [StoreItem.taken, clampNat_eq_min_max (by decide)]
  case burn =>
    intro c u
    have hexec : exec c s = .next (u.storeBurnRequest tag item value) := exec_storeBurn hready
    have hmga : u.mga = s.mga := mga_requested s c
    refine ⟨fun h => exec_next_of_eq hexec (storeBurnRequest_malformed h),
      fun i hi => ⟨fun hv => exec_next_of_eq hexec (storeBurnRequest_range hi hv), fun v hv => ?_⟩⟩
    intro clash
    have hclash : addressClash s.mga.stored i v = true ↔ clash := addressClash_iff _ i v
    have htaken := exec_next_of_eq hexec (storeBurnRequest_taken (tag := tag) hi hv)
    rw [hmga] at htaken
    have hfree (hburn : s.mga.burn = none) : ¬ s.mga.burn.isSome = true := by rw [hburn]; nofun
    refine ⟨fun hburn => exec_next_of_eq htaken (if_pos (Option.isSome_iff_ne_none.mpr hburn)), fun hburn hfour => ?_,
      fun hburn hfour hc => ?_, fun hburn hfour hc => ?_⟩ <;>
      have hnext := exec_next_of_eq htaken (if_neg (hfree hburn))
    · exact exec_next_of_eq hnext (if_pos hfour)
    · exact exec_next_of_eq hnext ((if_neg (Nat.not_le.mpr hfour)).trans (if_pos (hclash.mpr hc)))
    · exact exec_next_of_eq hnext ((if_neg (Nat.not_le.mpr hfour)).trans (if_neg (mt hclash.mp hc)))
  case live =>
    intro c u
    have hexec : exec c s = .next (u.setLiveRequest tag item value) := exec_setLive hready
    have hmga : u.mga = s.mga := mga_requested s c
    have hactive : u.active = s.active := active_requested s c
    have hlist : u.stationList = s.stationList := by
      obtain ⟨-, -, hcgt, -⟩ := requested_fields s c
      rw [stationList, hcgt]
      rfl
    refine ⟨fun h => exec_next_of_eq hexec (setLiveRequest_malformed h),
      fun i hi => ⟨fun hv => exec_next_of_eq hexec (setLiveRequest_range hi hv), fun v hv => ?_⟩⟩
    intro address clash held w x
    have hclash : addressClash u.mga.live i v = true ↔ clash := by rw [hmga]; exact addressClash_iff _ i v
    have hnoStation (hheld : ¬ held) : u.liveClash i v = none := liveClash_none (by rw [hactive, hlist]; exact hheld)
    have hw : Reported u w := reply_reported u _ _ _ _
    have hwmga : w.mga = s.mga := hw.mga.trans hmga
    have hx : w.setMga { w.mga with live := w.mga.live.set i v } = x :=
      congrArg (fun m : Mga => w.setMga { m with live := m.live.set i v }) hwmga
    refine ⟨fun hc => exec_next_of_eq hexec (setLiveRequest_clash hi hv (hclash.mpr hc)),
      fun front k e back hc ha haddress heq hfront he => exec_next_of_eq hexec (setLiveRequest_station hi hv
        (mt hclash.mp hc) (liveClash_some (hactive.trans ha) haddress (hlist.trans heq) hfront he)),
      fun hc hheld hplain => ?_, fun hc hheld hitem hpart => ?_⟩ <;>
      have hdone := exec_next_of_eq hexec (setLiveRequest_done hi hv (mt hclash.mp hc) (hnoStation hheld))
    · refine exec_next_of_eq hdone ((changeLive_plain ?_).trans hx)
      show i ≠ .supervisionTimeout ∨ w.mga.partState ≠ .supervised
      rw [hwmga]
      exact hplain
    · subst hitem
      refine exec_next_of_eq hdone ((changeLive_supervision (s := w) ((congrArg Mga.partState hwmga).trans hpart)).trans ?_)
      rw [hx, hw.supervision]

end Sys2Proof.Proofs
end
